-- ==== Sys2Proof/Word.lean ====
section
/-! DEFINITION. The word types of the I3C transaction engine (spec/00_scope.md R15: bits are numbered from 0 at
the least significant bit, arithmetic on an N-bit field is modulo 2^N). -/

namespace Sys2Proof

/-- One byte: a data byte on the bus, a byte of system memory, a CCC code, an opcode. -/
abbrev Byte := BitVec 8

/-- One 32-bit word: a host register, a control word, a status word. -/
abbrev Word := BitVec 32

/-- One 7-bit bus address (spec/20_memory.md R130, space 4). -/
abbrev Addr7 := BitVec 7

end Sys2Proof
end

