-- ==== Sys2Proof/Syntax.lean ====
section
/-! DEFINITION. The instructions of the engine: one constructor for each row of spec/opcode_table.json, over the three
decoding spaces of spec/00_scope.md R20: host commands written to CMD (spec/30_encoding.md R170, R171), control words
executed by the sequencer (R180, R181), CCC codes decoded in target role (R215). -/

namespace Sys2Proof

/-- The completion strategy of a command, CMD bits 9:8 (spec/10_state.md R50); the value 3 is reserved and no
instruction has it. -/
inductive Strat where
  | poll
  | irq
  | dma
deriving DecidableEq, Repr

/-- The three decoding spaces (spec/00_scope.md R20). -/
inductive Space where
  | command
  | control
  | ccc
deriving DecidableEq, Repr

/-- The instructions. A host command carries its strategy and its sub-argument SUB; its operands ARG0..ARG2 are
registers. A control word carries its fields (R180). A CCC code carries nothing, but for ENTHDR0-7, which carries the
number of the HDR mode. -/
inductive Instr where
  /-- CTX_RESET, host command OP 0x01 (R240) -/
  | ctxReset (strat : Strat) (sub : Byte)
  /-- CTX_BIND, host command OP 0x02 (R241) -/
  | ctxBind (strat : Strat) (sub : Byte)
  /-- BUILD_PRIVATE, host command OP 0x03 (R244) -/
  | buildPrivate (strat : Strat) (sub : Byte)
  /-- BUILD_CCC, host command OP 0x04 (R245) -/
  | buildCcc (strat : Strat) (sub : Byte)
  /-- DECODE_PAYLOAD, host command OP 0x05 (R395) -/
  | decodePayload (strat : Strat) (sub : Byte)
  /-- INIT, host command OP 0x10 (R300) -/
  | init (strat : Strat) (sub : Byte)
  /-- DEINIT, host command OP 0x11 (R301) -/
  | deinit (strat : Strat) (sub : Byte)
  /-- START, host command OP 0x20 (R282) -/
  | start (strat : Strat) (sub : Byte)
  /-- ABORT, host command OP 0x21 (R292) -/
  | abort (strat : Strat) (sub : Byte)
  /-- DAA, host command OP 0x22 (R381) -/
  | daa (strat : Strat) (sub : Byte)
  /-- SETDASA, host command OP 0x23 (R294) -/
  | setdasa (strat : Strat) (sub : Byte)
  /-- PROBE, host command OP 0x24 (R295) -/
  | probe (strat : Strat) (sub : Byte)
  /-- BUS_RECOVER, host command OP 0x25 (R296) -/
  | busRecover (strat : Strat) (sub : Byte)
  /-- TGT_TX, host command OP 0x30 (R420) -/
  | tgtTx (strat : Strat) (sub : Byte)
  /-- TGT_RX, host command OP 0x31 (R422) -/
  | tgtRx (strat : Strat) (sub : Byte)
  /-- HJ_REQ, host command OP 0x32 (R425) -/
  | hjReq (strat : Strat) (sub : Byte)
  /-- CR_REQ, host command OP 0x33 (R430) -/
  | crReq (strat : Strat) (sub : Byte)
  /-- IBI_REQ, host command OP 0x34 (R436) -/
  | ibiReq (strat : Strat) (sub : Byte)
  /-- NOTIFY_ACTIVATE, host command OP 0x40 (R540) -/
  | notifyActivate (strat : Strat) (sub : Byte)
  /-- NOTIFY_DEACTIVATE, host command OP 0x41 (R541) -/
  | notifyDeactivate (strat : Strat) (sub : Byte)
  /-- GET_CCC_INFO, host command OP 0x42 (R546) -/
  | getCccInfo (strat : Strat) (sub : Byte)
  /-- CW_CCC, control word MTYPE 0x1 (R287) -/
  | cwCcc (mend arb : Bool) (code : Byte) (dcnt : BitVec 16)
  /-- CW_PRIV, control word MTYPE 0x2 (R302) -/
  | cwPriv (mend arb : Bool) (addr : Addr7) (rnw : Bool) (dcnt : BitVec 16)
  /-- CW_I2C, control word MTYPE 0x3 (R303) -/
  | cwI2c (mend arb : Bool) (addr : Addr7) (rnw : Bool) (dcnt : BitVec 16)
  /-- CW_DIRECT, control word MTYPE 0x4 (R289) -/
  | cwDirect (mend arb : Bool) (addr : Addr7) (rnw : Bool) (dcnt : BitVec 16)
  /-- ENEC_B, CCC code code 0x00 (R464) -/
  | enecB
  /-- DISEC_B, CCC code code 0x01 (R465) -/
  | disecB
  /-- ENTAS0_B, CCC code code 0x02 (R466) -/
  | entas0B
  /-- ENTAS1_B, CCC code code 0x03 (R466) -/
  | entas1B
  /-- ENTAS2_B, CCC code code 0x04 (R466) -/
  | entas2B
  /-- ENTAS3_B, CCC code code 0x05 (R466) -/
  | entas3B
  /-- RSTDAA_B, CCC code code 0x06 (R467) -/
  | rstdaaB
  /-- ENTDAA, CCC code code 0x07 (R468) -/
  | entdaa
  /-- DEFTGTS, CCC code code 0x08 (R478) -/
  | deftgts
  /-- SETMWL_B, CCC code code 0x09 (R470) -/
  | setmwlB
  /-- SETMRL_B, CCC code code 0x0A (R471) -/
  | setmrlB
  /-- RSTACT_B, CCC code code 0x2A (R473) -/
  | rstactB
  /-- DEFGRPA, CCC code code 0x2B (R478) -/
  | defgrpa
  /-- ENEC_D, CCC code code 0x80 (R464) -/
  | enecD
  /-- DISEC_D, CCC code code 0x81 (R465) -/
  | disecD
  /-- ENTAS0_D, CCC code code 0x82 (R466) -/
  | entas0D
  /-- ENTAS1_D, CCC code code 0x83 (R466) -/
  | entas1D
  /-- ENTAS2_D, CCC code code 0x84 (R466) -/
  | entas2D
  /-- ENTAS3_D, CCC code code 0x85 (R466) -/
  | entas3D
  /-- RSTDAA_D, CCC code code 0x86 (R467) -/
  | rstdaaD
  /-- SETDASA, CCC code code 0x87 (R469) -/
  | setdasaCcc
  /-- SETNEWDA, CCC code code 0x88 (R472) -/
  | setnewda
  /-- SETMWL_D, CCC code code 0x89 (R470) -/
  | setmwlD
  /-- SETMRL_D, CCC code code 0x8A (R471) -/
  | setmrlD
  /-- GETMWL, CCC code code 0x8B (R480) -/
  | getmwl
  /-- GETMRL, CCC code code 0x8C (R481) -/
  | getmrl
  /-- GETPID, CCC code code 0x8D (R482) -/
  | getpid
  /-- GETBCR, CCC code code 0x8E (R483) -/
  | getbcr
  /-- GETDCR, CCC code code 0x8F (R484) -/
  | getdcr
  /-- GETSTATUS, CCC code code 0x90 (R485) -/
  | getstatus
  /-- GETACCCR, CCC code code 0x91 (R486) -/
  | getacccr
  /-- RSTACT_D, CCC code code 0x9A (R473) -/
  | rstactD
  /-- ENTHDR0-7, CCC code codes 0x20–0x27 (R476) -/
  | enthdr (hdr : BitVec 3)
deriving DecidableEq, Repr

end Sys2Proof
end

