-- ==== Sys2Proof/Decode.lean ====
section
/-! DEFINITION. The decoder of the three decoding spaces, total on any bytes and rejecting by name, and the encoder,
written from the same tables (spec/30_encoding.md R170, R171, R180–R182, R215); with them the bit-field helpers and the
transfer-mode byte (R176–R178). Multi-byte values are little-endian (spec/20_memory.md R132). -/

namespace Sys2Proof

/-- The `n` bits of `w` from bit `lo` up (spec/00_scope.md R15, `v[hi:lo]`). -/
def bitField {m : Nat} (w : BitVec m) (lo n : Nat) : BitVec n := w.extractLsb' lo n

/-- A field of a 32-bit value at bit `lo` (spec/00_scope.md R15, `v << lo`, zero-extended). -/
def place {n : Nat} (v : BitVec n) (lo : Nat) : Word := v.setWidth 32 <<< lo

/-- The 32-bit value of four bytes, the byte at the lowest address first (spec/20_memory.md R132). -/
def le32 (b0 b1 b2 b3 : Byte) : Word := place b0 0 ||| place b1 8 ||| place b2 16 ||| place b3 24

/-- The four bytes of a 32-bit value, the byte at the lowest address first. -/
def bytes32 (w : Word) : List Byte := [bitField w 0 8, bitField w 8 8, bitField w 16 8, bitField w 24 8]

/-- The eight bytes of a 64-bit value, the byte at the lowest address first. -/
def bytes64 (p : BitVec 64) : List Byte := bytes32 (bitField p 0 32) ++ bytes32 (bitField p 32 32)

/-- A Bool as one bit. -/
def bit (b : Bool) : BitVec 1 := BitVec.ofBool b

/-- The message class of a transfer-mode byte, bits 1:0 (spec/30_encoding.md R176). -/
inductive MsgClass where
  | privateI3c
  | legacyI2c
  | cccDirect
  | cccBroadcast
deriving DecidableEq, Repr

/-- The transfer-mode tuple (spec/30_encoding.md R176). -/
structure ModeByte where
  /-- CLASS, bits 1:0 -/
  cls : MsgClass
  /-- ARB, bit 2: arbitration header present -/
  arb : Bool
  /-- DB, bit 3: defining byte present -/
  db : Bool
  /-- TERM, bit 4: stop after every message -/
  term : Bool
deriving DecidableEq, Repr

/-- CLASS of a mode byte. -/
def msgClassOf (m : Byte) : MsgClass :=
  match m.getLsbD 1, m.getLsbD 0 with
  | false, false => .privateI3c
  | false, true => .legacyI2c
  | true, false => .cccDirect
  | true, true => .cccBroadcast

/-- The four axes of a mode byte. -/
def modeByteOf (m : Byte) : ModeByte :=
  { cls := msgClassOf m, arb := m.getLsbD 2, db := m.getLsbD 3, term := m.getLsbD 4 }

/-- The class belongs to BUILD_CCC, not to BUILD_PRIVATE (spec/30_encoding.md R178). -/
def MsgClass.isCcc : MsgClass → Bool
  | .privateI3c => false
  | .legacyI2c => false
  | .cccDirect => true
  | .cccBroadcast => true

/-- The legal mode bytes (spec/30_encoding.md R177): bits 7:5 are 0, a private or legacy class has no defining byte, a
CCC class no arbitration header. -/
def modeLegal (m : Byte) : Bool :=
  (m >>> 5 == 0#8) &&
    (if (modeByteOf m).cls.isCcc then !(modeByteOf m).arb else !(modeByteOf m).db)

/-- Why bytes decode to no instruction. -/
inductive DecodeError where
  /-- fewer bytes than the space's instruction has -/
  | truncated
  /-- an OP that spec/30_encoding.md R171 does not list -/
  | reservedOp
  /-- STRAT = 3 (R170) -/
  | reservedStrat
  /-- a nonzero reserved field of CMD (R170) or of a control word (R180) -/
  | reservedField
  /-- MTYPE 0x0 or 0x5..0xF (R181) -/
  | reservedMtype
  /-- a defined CCC code that the target does not support (R215, column U) -/
  | unsupportedCcc
  /-- a CCC code outside the table (R215) -/
  | undefinedCcc
deriving DecidableEq, Repr

/-- What the target does with a CCC code (spec/30_encoding.md R215). -/
inductive CccClass where
  | supported
  | unsupported
  | hdr
  | undefined
deriving DecidableEq, Repr

/-- STRAT, CMD bits 9:8 (spec/30_encoding.md R170). -/
def stratOf (v : BitVec 2) : Option Strat :=
  match v.toNat with
  | 0 => some .poll
  | 1 => some .irq
  | 2 => some .dma
  | _ => none

/-- The encoding of a strategy. -/
def stratBits : Strat → BitVec 2
  | .poll => 0#2
  | .irq => 1#2
  | .dma => 2#2

/-- The command of an opcode (spec/30_encoding.md R171). -/
def commandOf (op : Byte) (st : Strat) (sub : Byte) : Option Instr :=
  match op.toNat with
  | 0x01 => some (.ctxReset st sub)
  | 0x02 => some (.ctxBind st sub)
  | 0x03 => some (.buildPrivate st sub)
  | 0x04 => some (.buildCcc st sub)
  | 0x05 => some (.decodePayload st sub)
  | 0x10 => some (.init st sub)
  | 0x11 => some (.deinit st sub)
  | 0x20 => some (.start st sub)
  | 0x21 => some (.abort st sub)
  | 0x22 => some (.daa st sub)
  | 0x23 => some (.setdasa st sub)
  | 0x24 => some (.probe st sub)
  | 0x25 => some (.busRecover st sub)
  | 0x30 => some (.tgtTx st sub)
  | 0x31 => some (.tgtRx st sub)
  | 0x32 => some (.hjReq st sub)
  | 0x33 => some (.crReq st sub)
  | 0x34 => some (.ibiReq st sub)
  | 0x40 => some (.notifyActivate st sub)
  | 0x41 => some (.notifyDeactivate st sub)
  | 0x42 => some (.getCccInfo st sub)
  | _ => none

/-- A write of CMD (spec/30_encoding.md R170). -/
def decodeCmd (w : Word) : Except DecodeError Instr :=
  if bitField w 10 6 = 0#6 ∧ bitField w 24 8 = 0#8 then
    match stratOf (bitField w 8 2) with
    | none => .error .reservedStrat
    | some st =>
      match commandOf (bitField w 0 8) st (bitField w 16 8) with
      | none => .error .reservedOp
      | some i => .ok i
  else .error .reservedField

/-- A control word (spec/30_encoding.md R180, R181). -/
def decodeCw (w : Word) : Except DecodeError Instr :=
  if bitField w 24 2 = 0#2 then
    match (bitField w 27 4).toNat with
    | 1 => .ok (.cwCcc (w.getLsbD 31) (w.getLsbD 26) (bitField w 16 8) (bitField w 0 16))
    | 2 => .ok (.cwPriv (w.getLsbD 31) (w.getLsbD 26) (bitField w 17 7) (w.getLsbD 16) (bitField w 0 16))
    | 3 => .ok (.cwI2c (w.getLsbD 31) (w.getLsbD 26) (bitField w 17 7) (w.getLsbD 16) (bitField w 0 16))
    | 4 => .ok (.cwDirect (w.getLsbD 31) (w.getLsbD 26) (bitField w 17 7) (w.getLsbD 16) (bitField w 0 16))
    | _ => .error .reservedMtype
  else .error .reservedField

/-- The class of a CCC code (spec/30_encoding.md R215, R217; spec/45_ccc_decoder.md R475–R477). -/
def cccClass (c : Byte) : CccClass :=
  let n := c.toNat
  if n ≤ 0x0A ∨ n = 0x2A ∨ n = 0x2B ∨ (0x80 ≤ n ∧ n ≤ 0x91) ∨ n = 0x9A then .supported
  else if 0x20 ≤ n ∧ n ≤ 0x27 then .hdr
  else if n = 0x0B ∨ n = 0x0C ∨ n = 0x12 ∨ n = 0x28 ∨ n = 0x29 ∨ n = 0x2C ∨ n = 0x2D ∨
      (0x61 ≤ n ∧ n ≤ 0x7F) ∨ (0x92 ≤ n ∧ n ≤ 0x9D) ∨ (0xE0 ≤ n ∧ n ≤ 0xFE) then .unsupported
  else .undefined

/-- The CCC of a code that the target decodes, ENTHDR0-7 apart (spec/30_encoding.md R215). -/
def cccOf (c : Byte) : Option Instr :=
  match c.toNat with
  | 0x00 => some .enecB
  | 0x01 => some .disecB
  | 0x02 => some .entas0B
  | 0x03 => some .entas1B
  | 0x04 => some .entas2B
  | 0x05 => some .entas3B
  | 0x06 => some .rstdaaB
  | 0x07 => some .entdaa
  | 0x08 => some .deftgts
  | 0x09 => some .setmwlB
  | 0x0A => some .setmrlB
  | 0x2A => some .rstactB
  | 0x2B => some .defgrpa
  | 0x80 => some .enecD
  | 0x81 => some .disecD
  | 0x82 => some .entas0D
  | 0x83 => some .entas1D
  | 0x84 => some .entas2D
  | 0x85 => some .entas3D
  | 0x86 => some .rstdaaD
  | 0x87 => some .setdasaCcc
  | 0x88 => some .setnewda
  | 0x89 => some .setmwlD
  | 0x8A => some .setmrlD
  | 0x8B => some .getmwl
  | 0x8C => some .getmrl
  | 0x8D => some .getpid
  | 0x8E => some .getbcr
  | 0x8F => some .getdcr
  | 0x90 => some .getstatus
  | 0x91 => some .getacccr
  | 0x9A => some .rstactD
  | _ => none

/-- A CCC code received in target role (spec/45_ccc_decoder.md R460). -/
def decodeCcc (c : Byte) : Except DecodeError Instr :=
  match cccOf c with
  | some i => .ok i
  | none =>
    match cccClass c with
    | .hdr => .ok (.enthdr (bitField c 0 3))
    | .undefined => .error .undefinedCcc
    | .unsupported => .error .unsupportedCcc
    | .supported => .error .unsupportedCcc

/-- The decoder: the first instruction of a list of bytes in a decoding space, and the bytes after it. -/
def decode (sp : Space) (bs : List Byte) : Except DecodeError (Instr × List Byte) :=
  match sp, bs with
  | .ccc, c :: rest => (decodeCcc c).map (·, rest)
  | .command, b0 :: b1 :: b2 :: b3 :: rest => (decodeCmd (le32 b0 b1 b2 b3)).map (·, rest)
  | .control, b0 :: b1 :: b2 :: b3 :: rest => (decodeCw (le32 b0 b1 b2 b3)).map (·, rest)
  | _, _ => .error .truncated

/-- The decoding space of a row of the opcode table, from its bits: a CCC code has one byte; a 32-bit word with a nonzero
MTYPE field is a control word, any other a write of CMD (whose bits 31:24 must be 0). -/
def tableSpace (nbits w : Nat) : Space :=
  if nbits ≤ 8 then .ccc else if bitField (BitVec.ofNat 32 w) 27 4 = 0#4 then .command else .control

/-- The bytes of a row's word, as the block stores them: one byte for a CCC code, else four in little-endian order. -/
def tableBytes (nbits w : Nat) : List Byte :=
  if nbits ≤ 8 then [BitVec.ofNat 8 w] else bytes32 (BitVec.ofNat 32 w)

/-- The instruction the decoder reads from a row's bits. -/
def decodeTableWord (nbits w : Nat) : Option Instr :=
  match decode (tableSpace nbits w) (tableBytes nbits w) with
  | .ok r => some r.1
  | .error _ => none

/-- The encoding of a write of CMD (spec/30_encoding.md R170). -/
def cmdWord (op : Byte) (st : Strat) (sub : Byte) : Word :=
  place sub 16 ||| place (stratBits st) 8 ||| place op 0

/-- The encoding of a control word with an address (spec/30_encoding.md R180). -/
def addrWord (mtype : BitVec 4) (mend arb : Bool) (addr : Addr7) (rnw : Bool) (dcnt : BitVec 16) : Word :=
  place (bit mend) 31 ||| place mtype 27 ||| place (bit arb) 26 ||| place addr 17 ||| place (bit rnw) 16 ||| place dcnt 0

/-- The encoding of a CCC control word (spec/30_encoding.md R180, R182). -/
def cccWord (mend arb : Bool) (code : Byte) (dcnt : BitVec 16) : Word :=
  place (bit mend) 31 ||| place 1#4 27 ||| place (bit arb) 26 ||| place code 16 ||| place dcnt 0

/-- The decoding space an instruction belongs to. -/
def Instr.space : Instr → Space
  | .ctxReset _ _ => .command
  | .ctxBind _ _ => .command
  | .buildPrivate _ _ => .command
  | .buildCcc _ _ => .command
  | .decodePayload _ _ => .command
  | .init _ _ => .command
  | .deinit _ _ => .command
  | .start _ _ => .command
  | .abort _ _ => .command
  | .daa _ _ => .command
  | .setdasa _ _ => .command
  | .probe _ _ => .command
  | .busRecover _ _ => .command
  | .tgtTx _ _ => .command
  | .tgtRx _ _ => .command
  | .hjReq _ _ => .command
  | .crReq _ _ => .command
  | .ibiReq _ _ => .command
  | .notifyActivate _ _ => .command
  | .notifyDeactivate _ _ => .command
  | .getCccInfo _ _ => .command
  | .cwCcc _ _ _ _ => .control
  | .cwPriv _ _ _ _ _ => .control
  | .cwI2c _ _ _ _ _ => .control
  | .cwDirect _ _ _ _ _ => .control
  | .enecB => .ccc
  | .disecB => .ccc
  | .entas0B => .ccc
  | .entas1B => .ccc
  | .entas2B => .ccc
  | .entas3B => .ccc
  | .rstdaaB => .ccc
  | .entdaa => .ccc
  | .deftgts => .ccc
  | .setmwlB => .ccc
  | .setmrlB => .ccc
  | .rstactB => .ccc
  | .defgrpa => .ccc
  | .enecD => .ccc
  | .disecD => .ccc
  | .entas0D => .ccc
  | .entas1D => .ccc
  | .entas2D => .ccc
  | .entas3D => .ccc
  | .rstdaaD => .ccc
  | .setdasaCcc => .ccc
  | .setnewda => .ccc
  | .setmwlD => .ccc
  | .setmrlD => .ccc
  | .getmwl => .ccc
  | .getmrl => .ccc
  | .getpid => .ccc
  | .getbcr => .ccc
  | .getdcr => .ccc
  | .getstatus => .ccc
  | .getacccr => .ccc
  | .rstactD => .ccc
  | .enthdr _ => .ccc

/-- The encoder: the bytes of an instruction, in the order in which the block stores them. -/
def encode (i : Instr) : List Byte :=
  match i with
  | .ctxReset st sub => bytes32 (cmdWord 0x01#8 st sub)
  | .ctxBind st sub => bytes32 (cmdWord 0x02#8 st sub)
  | .buildPrivate st sub => bytes32 (cmdWord 0x03#8 st sub)
  | .buildCcc st sub => bytes32 (cmdWord 0x04#8 st sub)
  | .decodePayload st sub => bytes32 (cmdWord 0x05#8 st sub)
  | .init st sub => bytes32 (cmdWord 0x10#8 st sub)
  | .deinit st sub => bytes32 (cmdWord 0x11#8 st sub)
  | .start st sub => bytes32 (cmdWord 0x20#8 st sub)
  | .abort st sub => bytes32 (cmdWord 0x21#8 st sub)
  | .daa st sub => bytes32 (cmdWord 0x22#8 st sub)
  | .setdasa st sub => bytes32 (cmdWord 0x23#8 st sub)
  | .probe st sub => bytes32 (cmdWord 0x24#8 st sub)
  | .busRecover st sub => bytes32 (cmdWord 0x25#8 st sub)
  | .tgtTx st sub => bytes32 (cmdWord 0x30#8 st sub)
  | .tgtRx st sub => bytes32 (cmdWord 0x31#8 st sub)
  | .hjReq st sub => bytes32 (cmdWord 0x32#8 st sub)
  | .crReq st sub => bytes32 (cmdWord 0x33#8 st sub)
  | .ibiReq st sub => bytes32 (cmdWord 0x34#8 st sub)
  | .notifyActivate st sub => bytes32 (cmdWord 0x40#8 st sub)
  | .notifyDeactivate st sub => bytes32 (cmdWord 0x41#8 st sub)
  | .getCccInfo st sub => bytes32 (cmdWord 0x42#8 st sub)
  | .cwCcc mend arb code dcnt => bytes32 (cccWord mend arb code dcnt)
  | .cwPriv mend arb addr rnw dcnt => bytes32 (addrWord 2#4 mend arb addr rnw dcnt)
  | .cwI2c mend arb addr rnw dcnt => bytes32 (addrWord 3#4 mend arb addr rnw dcnt)
  | .cwDirect mend arb addr rnw dcnt => bytes32 (addrWord 4#4 mend arb addr rnw dcnt)
  | .enecB => [0x00#8]
  | .disecB => [0x01#8]
  | .entas0B => [0x02#8]
  | .entas1B => [0x03#8]
  | .entas2B => [0x04#8]
  | .entas3B => [0x05#8]
  | .rstdaaB => [0x06#8]
  | .entdaa => [0x07#8]
  | .deftgts => [0x08#8]
  | .setmwlB => [0x09#8]
  | .setmrlB => [0x0A#8]
  | .rstactB => [0x2A#8]
  | .defgrpa => [0x2B#8]
  | .enecD => [0x80#8]
  | .disecD => [0x81#8]
  | .entas0D => [0x82#8]
  | .entas1D => [0x83#8]
  | .entas2D => [0x84#8]
  | .entas3D => [0x85#8]
  | .rstdaaD => [0x86#8]
  | .setdasaCcc => [0x87#8]
  | .setnewda => [0x88#8]
  | .setmwlD => [0x89#8]
  | .setmrlD => [0x8A#8]
  | .getmwl => [0x8B#8]
  | .getmrl => [0x8C#8]
  | .getpid => [0x8D#8]
  | .getbcr => [0x8E#8]
  | .getdcr => [0x8F#8]
  | .getstatus => [0x90#8]
  | .getacccr => [0x91#8]
  | .rstactD => [0x9A#8]
  | .enthdr hdr => [0x20#8 ||| hdr.setWidth 8]

end Sys2Proof
end

