-- ==== Sys2Proof/Config.lean ====
section
/-! DEFINITION. The implementation parameters of spec/00_scope.md R13, the legality of a parameter set (R14), and the
free values: constants without a body, of which nothing can be proved but their type. -/

namespace Sys2Proof

/-- `P_DAA_PAYLOAD_TIMING` (spec/00_scope.md R13, spec/43_daa.md R385): whether a DAA payload is reported before or
after the address of its device is acknowledged. -/
inductive DaaTiming where
  | preAssign
  | postAssign
deriving DecidableEq, Repr, Inhabited

/-- A range of system memory on which some access answers `mem_fault`: one entry of `P_MEMMAP` (spec/20_memory.md R138).
An address in no region is backed and permits every access. -/
structure Region where
  /-- the lowest address of the region -/
  base : Nat
  /-- how many bytes the region has -/
  size : Nat
  /-- a read in the region is answered with its data (otherwise `mem_fault`) -/
  readable : Bool
  /-- a write in the region is performed (otherwise `mem_fault`) -/
  writable : Bool
deriving DecidableEq, Repr

/-- The parameter set (spec/00_scope.md R13). `P_BDT_ENTRIES` is 4 in every legal set (R14) and stands in the type of the
table. The default of a field is the default the spec gives. -/
structure Params where
  /-- `P_CFIFO_DEPTH`, in 32-bit words -/
  cfifoDepth : Nat := 4
  /-- `P_SFIFO_DEPTH`, in 32-bit words -/
  sfifoDepth : Nat := 4
  /-- `P_TXFIFO_DEPTH`, in bytes -/
  txfifoDepth : Nat := 8
  /-- `P_RXFIFO_DEPTH`, in bytes -/
  rxfifoDepth : Nat := 8
  /-- `P_BDT_ENTRIES` -/
  bdtEntries : Nat := 4
  /-- `P_IBI_MAX`: most IBI payload bytes one IBI record holds -/
  ibiMax : Nat := 4
  /-- `P_ERR_TRACK`: last-error tracking -/
  errTrack : Bool := true
  /-- `P_DMA`: strategy DMA supported -/
  dma : Bool := true
  /-- `P_USER_DATA`: the user-data register is present -/
  userData : Bool := true
  /-- `P_ADDR_W`: how many bits a system-memory address has -/
  addrW : Nat := 32
  /-- `P_DAA_PAYLOAD_TIMING` -/
  daaTiming : DaaTiming
  /-- `P_I3C_VERSION`, informational: no rule reads it (spec/00_scope.md R3) -/
  i3cVersion : Nat
  /-- `P_MEMMAP`: the regions on which some access faults -/
  memmap : List Region := []
deriving DecidableEq, Repr

/-- A FIFO depth that spec/00_scope.md R14 allows. -/
def Params.depthOk (d : Nat) : Bool := decide (1 ≤ d) && decide (d ≤ 65535)

/-- The legal parameter sets (spec/00_scope.md R14): every FIFO depth between 1 and 65535, `P_IBI_MAX` at most 4,
four BDT entries. -/
def Params.legal (p : Params) : Bool :=
  Params.depthOk p.cfifoDepth && Params.depthOk p.sfifoDepth && Params.depthOk p.txfifoDepth &&
    Params.depthOk p.rxfifoDepth && decide (p.ibiMax ≤ 4) && decide (p.bdtEntries = 4)

namespace Config

/-- `P_DAA_PAYLOAD_TIMING`, OPEN (spec/43_daa.md R385, spec/92_eei_decisions.md D12). FREE VALUE: log entry 2. -/
opaque daaPayloadTiming : DaaTiming

/-- `P_I3C_VERSION`, OPEN and informational (spec/00_scope.md R3, R13). FREE VALUE: log entry 2. -/
opaque i3cVersion : Nat

/-- `P_DMA_ABORT_STATE`: the state of the DMA engine's own registers after the n-th abort under strategy DMA
(spec/93_implementation_defined.md U2). FREE VALUE: log entry 3. -/
opaque dmaAbortState : Nat → Word

/-- What the byte at an address of the bound rx buffer past DATACNT holds after the n-th abort under strategy DMA
(spec/93_implementation_defined.md U2). FREE VALUE: log entry 3. -/
opaque dmaAbortByte : Nat → Nat → Byte

end Config

/-- The parameter set of the machine right after power-on: the defaults of spec/00_scope.md R13, with its OPEN
parameters left free. -/
def Params.standard : Params :=
  { daaTiming := Config.daaPayloadTiming, i3cVersion := Config.i3cVersion }

end Sys2Proof
end

