-- ==== Sys2Proof/Machine/State.lean ====
section
/-! DEFINITION. The machine's state as plain data (spec/10_state.md), the reasons a step can stop, and the state right
after power-on reset (spec/70_reset_and_hazards.md R620). The fields of `State` but `work` and `env` are the spec's;
`work` and `env` are the model's own: what an operation in flight must remember between two PHY requests, and the
environment (parameters, the agents' turns, the PHY's events, what the block drove on the bus). -/

namespace Sys2Proof.Machine

/-! ## Names of states and phases -/

/-- MODE (spec/10_state.md R42). The value 3 is never held. -/
inductive Mode where
  | none
  | controller
  | target
deriving DecidableEq, Repr

/-- STATE, the lifecycle state (spec/10_state.md R43). No other value is ever held. -/
inductive Life where
  | reset
  | init
  | idle
  | tx
  | rx
  | txrx
  | daa
  | tgtreq
  | abort
deriving DecidableEq, Repr

/-- SEQ, the phase of the controller sequencer (spec/10_state.md R77, spec/41_controller.md R284). -/
inductive SeqPhase where
  | idle
  | fetch
  | addr
  | data
  | fin
deriving DecidableEq, Repr

/-- TPH, the phase of the target path (spec/10_state.md R78). -/
inductive TgtPhase where
  | idle
  | addr
  | privW
  | privR
  | ccc
  | cccData
  | direct
  | directW
  | directR
  | daa
  | ignore
deriving DecidableEq, Repr

/-- TRQ, the target-request sub-state (spec/10_state.md R79). -/
inductive TgtRequest where
  | none
  | hjWaitDaa
  | crWaitGetacccr
  | ibiData
deriving DecidableEq, Repr

/-- DAASTEP (spec/43_daa.md R380). -/
inductive DaaPhase where
  | idle
  | rstdaa
  | entdaa
  | loop
  | assign
deriving DecidableEq, Repr

/-- The error codes 0..18 (spec/60_exceptions.md R560). -/
inductive ErrCode where
  | ce0
  | ce1
  | ce2
  | ce3
  | te0
  | te1
  | te2
  | te3
  | te4
  | te5
  | te6
  | stall
  | covr
  | dovr
  | anack
  | dnack
  | derr
  | dma
  | dynaddr
deriving DecidableEq, Repr

/-- The interrupt flags of ISR, IER and NOTEN (spec/30_encoding.md R205). -/
inductive Flag where
  | xferDone
  | err
  | abortDone
  | daaDev
  | daaDone
  | ibi
  | crreq
  | hj
  | tgtDone
  | treqDone
  | nGetacccr
  | nIbiEnd
  | nDaUpd
  | nGet
  | nGetStatus
  | nMaxLen
  | nRstAct
  | nActState
  | nEvent
  | nWakeup
  | nDefList
deriving DecidableEq, Repr

/-! ## The PHY boundary (spec/00_scope.md R9) -/

/-- The requests the ENGINE issues to the PHY. -/
inductive PhyReq where
  | start
  | rstart
  | stop
  | addr (a : Addr7) (rnw : Bool)
  | wbyte (b : Byte) (i2c : Bool)
  | rbyte (i2c last : Bool)
  | daaRead
  | daaWrite (a : Addr7)
  | recover
  | reqAck (b : Bool)
  | treq (a : Addr7) (rnw : Bool)
  | tbyte (b : Byte) (last : Bool)
deriving DecidableEq, Repr

/-- The answers the PHY oracle gives. -/
inductive PhyAnswer where
  | ok
  | arb (a : Addr7) (rnw : Bool)
  | ack
  | nack
  | err (k : ErrCode)
  | byte (b : Byte) (more : Bool)
  | payload (p : BitVec 64)
  | lost
  | stopped
deriving DecidableEq, Repr

/-- The unsolicited bus events the PHY delivers: those of target role, and `treq` in controller role. -/
inductive PhyEvent where
  | start
  | rstart
  | stop
  | addr (a : Addr7) (rnw : Bool)
  | byte (b : Byte)
  | daaSr
  | da (a : Addr7)
  | resetPattern
  | wakeup
  | err (k : ErrCode)
  | treq (a : Addr7) (rnw : Bool)
deriving DecidableEq, Repr

/-- What the block drives towards the PHY: a request, the ACK or NACK that answers an address, or the payload with which
the PHY arbitrates for this target in ENTDAA (spec/45_ccc_decoder.md R468). -/
inductive BusOut where
  | req (r : PhyReq)
  | answer (ack : Bool)
  | offer (p : BitVec 64)
deriving DecidableEq, Repr

/-! ## The agents' turns (spec/00_scope.md R8) -/

/-- One access of the HOST to the register space: the offset from `P_BASE`, the width in bytes, and the value written. -/
inductive HostAccess where
  | read (off : Byte) (width : Nat)
  | write (off : Byte) (width : Nat) (v : Word)
deriving DecidableEq, Repr

/-- Which of the ENGINE's machines takes an ENGINE turn: the controller's one machine (and INIT), or, in target role, the
one that drives read bytes, the one that makes target requests, the one that ends a finished target message. -/
inductive EngineUnit where
  | main
  | drive
  | request
  | close
deriving DecidableEq, Repr

/-- The actions of the MOVER (spec/42_fifo.md R345): M1 control fetch, M2 tx fill, M3 rx drain. None moves a status word:
log entry 37. -/
inductive MoverAction where
  | m1
  | m2
  | m3
deriving DecidableEq, Repr

/-- One turn of one agent. The list of turns to come stands in the state, so every interleaving is some list. -/
inductive Turn where
  /-- the HOST accesses a register -/
  | host (a : HostAccess)
  /-- the HOST writes one byte of system memory -/
  | hostMem (addr : Nat) (b : Byte)
  /-- an ENGINE step, with the PHY's answer to the request it makes -/
  | engine (unit : EngineUnit) (a : PhyAnswer)
  /-- an ENGINE step that takes the next PHY event -/
  | event
  /-- a MOVER step; `dmaErr` is the DMA engine's own error, drawn under strategy DMA (spec/00_scope.md R11) -/
  | mover (m : MoverAction) (dmaErr : Bool)
  /-- the ENV event `timeout` (spec/00_scope.md R12) -/
  | timeout
  /-- power-on reset (spec/70_reset_and_hazards.md R620) -/
  | powerOn
deriving DecidableEq, Repr

/-- What the ENGINE step being taken was given: a PHY answer, or a PHY event. -/
inductive Cue where
  | answer (a : PhyAnswer)
  | event (e : PhyEvent)
deriving DecidableEq, Repr

/-! ## What an operation remembers between two PHY requests -/

/-- The next PHY request within one phase of the sequencer, of a one-shot command or of DAA. -/
inductive Micro where
  /-- START or repeated START -/
  | start
  /-- the header ADDR(0x7E, 0) -/
  | hdr
  /-- repeated START after the header or the CCC code -/
  | rstart
  /-- the CCC code byte -/
  | code
  /-- the address -/
  | addr
  /-- a data byte, or the DAA payload or address -/
  | data
  /-- the STOP that ends the frame -/
  | stop
  /-- the STOP that ends a DAA round (spec/43_daa.md R392) -/
  | quit
  /-- waiting for the MOVER to drain the rx bytes (spec/41_controller.md R290) -/
  | drain
deriving DecidableEq, Repr

/-- What is notified when a target request's frame has ended (spec/46_events.md R522, R526, R527). -/
inductive RequestNote where
  | none
  | ibi (entry : Fin 4)
  | crreq
  | hj
deriving DecidableEq, Repr

/-- The handling of a target request in controller role (spec/46_events.md R521): none, the REQACK to make, the payload
byte `k` to read, the STOP to make. -/
inductive RequestPhase where
  | idle
  | ack (a : Addr7) (rnw : Bool)
  | data (entry : Fin 4) (k : Nat)
  | stop (note : RequestNote)
deriving DecidableEq, Repr

/-! ## The groups of the state -/

/-- Identity, lifecycle and command interface (spec/10_state.md R42–R50). -/
structure Control where
  /-- MODE (R42) -/
  mode : Mode
  /-- STATE (R43) -/
  life : Life
  /-- LISTEN (R45) -/
  listen : Bool
  /-- CMDP, command pending (R46) -/
  cmdp : Bool
  /-- PENDOP, the OP of the pending command (R46) -/
  pendop : Byte
  /-- TMO, the ENV timeout may end the pending command (R46) -/
  tmo : Bool
  /-- RECOV, recovery required (R47) -/
  recov : Bool
  /-- SUSPENDED (R48) -/
  suspended : Bool
  /-- ABORTREQ (R49) -/
  abortreq : Bool
  /-- STRAT of the operation in flight (R50) -/
  strat : Strat
deriving DecidableEq, Repr

/-- Error latch, results and interrupt registers (spec/10_state.md R51–R55, R58, R88). -/
structure Report where
  /-- CALLERR (R51) -/
  callerr : BitVec 19
  /-- ERR (R52) -/
  err : BitVec 19
  /-- RESULT.CODE (R53) -/
  code : BitVec 4
  /-- RESULT.AUX (R53) -/
  aux : BitVec 16
  /-- RESERR (R53) -/
  reserr : BitVec 19
  /-- PRESULT.CODE (R88) -/
  pcode : BitVec 4
  /-- IER (R54) -/
  ier : Word
  /-- ISR (R55) -/
  isr : Word
  /-- NOTEN (R58) -/
  noten : Word
deriving DecidableEq, Repr

/-- Counters and pointers (spec/10_state.md R56, R57, R59, R60, R80). MSGDONE is an alias of MSGCNT (R80). A pointer is a
number below 2^`P_ADDR_W` (log entry 6). -/
structure Counters where
  /-- DATACNT (R56) -/
  datacnt : Word
  /-- MSGCNT, and its alias MSGDONE (R57, R80) -/
  msgcnt : BitVec 16
  /-- CTRLREM (R59) -/
  ctrlrem : BitVec 16
  /-- TXREM (R59) -/
  txrem : Word
  /-- RXREM (R59) -/
  rxrem : Word
  /-- CTRLPTR (R60) -/
  ctrlptr : Nat
  /-- TXPTR (R60) -/
  txptr : Nat
  /-- RXPTR (R60) -/
  rxptr : Nat
  /-- CTXADDR (R80) -/
  ctxaddr : Nat
deriving DecidableEq, Repr

/-- The four FIFOs, head first (spec/10_state.md R61). -/
structure Fifos where
  /-- CFIFO, control words -/
  cfifo : List Word
  /-- SFIFO, status words -/
  sfifo : List Word
  /-- TXFIFO, bytes -/
  txfifo : List Byte
  /-- RXFIFO, bytes -/
  rxfifo : List Byte
deriving DecidableEq, Repr

/-- One entry of the Bus Device Table (spec/10_state.md R71). -/
structure BdtEntry where
  /-- DA, bits 6:0 -/
  da : Addr7
  /-- V, bit 7 -/
  v : Bool
  /-- IBIACK, bit 8 -/
  ibiack : Bool
  /-- IBIDEN, bit 9 -/
  ibiden : Bool
  /-- CRACK, bit 10 -/
  crack : Bool
  /-- SUSP, bit 11 -/
  susp : Bool
deriving DecidableEq, Repr

/-- Configuration registers (spec/10_state.md R62–R66, R68–R71). -/
structure Setup where
  /-- FIFOCFG.TXTHR (R62) -/
  txthr : Bool
  /-- FIFOCFG.RXTHR (R62) -/
  rxthr : Bool
  /-- FIFOCFG.SFEN (R62) -/
  sfen : Bool
  /-- TIMING0 (R63) -/
  timing0 : Word
  /-- TIMING1 (R63) -/
  timing1 : Word
  /-- OWNADDR.DA (R64) -/
  da : Addr7
  /-- OWNADDR.DAV (R64) -/
  dav : Bool
  /-- OWNADDR.SA (R64) -/
  sa : Addr7
  /-- OWNADDR.SAV (R64) -/
  sav : Bool
  /-- TGTCHAR.BCR (R65) -/
  bcr : Byte
  /-- TGTCHAR.DCR (R65) -/
  dcr : Byte
  /-- TGTPID0 (R65) -/
  pid0 : Word
  /-- TGTPID1, bits 15:0 (R65) -/
  pid1 : BitVec 16
  /-- MAXLEN.MWL (R66) -/
  mwl : BitVec 16
  /-- MAXLEN.MRL (R66) -/
  mrl : BitVec 16
  /-- CTRLCFG.HJACK (R68) -/
  hjack : Bool
  /-- DAABASE (R69) -/
  daabase : Addr7
  /-- USERDATA (R70) -/
  userdata : Word
  /-- BDT1..BDT4 (R71), entry i at index i − 1 -/
  bdt : Vector BdtEntry 4
deriving DecidableEq, Repr

/-- TGTSTATE (spec/10_state.md R67). -/
structure Grants where
  /-- AS, the activity state -/
  act : BitVec 2
  /-- ENINT -/
  enint : Bool
  /-- ENCR -/
  encr : Bool
  /-- ENHJ -/
  enhj : Bool
  /-- RSTACT -/
  rstact : Byte
  /-- PERR -/
  perr : Bool
deriving DecidableEq, Repr

/-- IBIREC and IBIDATA (spec/10_state.md R73). -/
structure IbiRecord where
  /-- ADDR -/
  addr : Addr7
  /-- RNW -/
  rnw : Bool
  /-- CNT -/
  cnt : Byte
  /-- KIND: 0 IBI, 1 controller-role request, 2 hot-join -/
  kind : BitVec 2
  /-- IBIDATA -/
  data : Word
deriving DecidableEq, Repr

/-- DAA state (spec/10_state.md R74, R75). -/
structure DaaState where
  /-- DAACNT -/
  cnt : Byte
  /-- DAAPL0 -/
  pl0 : Word
  /-- DAAPL1 -/
  pl1 : Word
  /-- DAADA -/
  da : Addr7
  /-- DAASTEP -/
  phase : DaaPhase
  /-- DAANEXT -/
  next : Addr7
  /-- DAAPTR (R75) -/
  ptr : Nat
  /-- DAAROOM (R75) -/
  room : Word
deriving DecidableEq, Repr

/-- DEC0..DEC3 (spec/10_state.md R76). -/
structure Decoded where
  dec0 : Word
  dec1 : Word
  dec2 : Word
  dec3 : Word
deriving DecidableEq, Repr

/-- The controller transaction in flight (spec/10_state.md R77). -/
structure Sequencer where
  /-- SEQ -/
  phase : SeqPhase
  /-- CUR -/
  cur : Word
  /-- CURDONE -/
  curdone : BitVec 16
  /-- FRAME -/
  frame : Bool
  /-- CCCHDR -/
  ccchdr : Bool
  /-- EARLY -/
  early : Bool
  /-- NACKB -/
  nackb : Bool
  /-- BWS -/
  bws : Bool
  /-- CCCLAST -/
  ccclast : Byte
  /-- HANDOVER -/
  handover : Bool
deriving DecidableEq, Repr

/-- The target path (spec/10_state.md R78, R79). CCCN is the length of CCCBUF. -/
structure Target where
  /-- TPH -/
  phase : TgtPhase
  /-- IGNSTOP -/
  ignstop : Bool
  /-- CCCCUR -/
  ccccur : Byte
  /-- CCCBUF, of CCCN bytes -/
  cccbuf : List Byte
  /-- DEFBYTE -/
  defbyte : Byte
  /-- DEFV -/
  defv : Bool
  /-- RSPK -/
  rspk : Byte
  /-- TGTLEN -/
  tgtlen : Word
  /-- TGTEND -/
  tgtend : Bool
  /-- HANDOFF -/
  handoff : Bool
  /-- TRQ (R79) -/
  trq : TgtRequest
deriving DecidableEq, Repr

/-- One CCC information snapshot slot (spec/10_state.md R81). -/
structure Slot where
  pend : Bool
  da : Addr7
  dav : Bool
  mwl : BitVec 16
  mrl : BitVec 16
  rstact : Byte
  act : BitVec 2
  enint : Bool
  encr : Bool
  enhj : Bool
deriving DecidableEq, Repr

/-- Snapshots and the notification buffer (spec/10_state.md R81, R82). -/
structure Snapshots where
  /-- the slots of the notification ids 16..26, id n at index n − 16 -/
  slots : Vector Slot 11
  /-- INFO0 -/
  info0 : Word
  /-- INFO1 -/
  info1 : Word
  /-- NBUFPTR -/
  nbufptr : Nat
  /-- NBUFLEN -/
  nbuflen : Word
deriving DecidableEq, Repr

/-- ARG0..ARG3 (spec/10_state.md R83). -/
structure Args where
  arg0 : Word
  arg1 : Word
  arg2 : Word
  arg3 : Word
deriving DecidableEq, Repr

/-- System memory (spec/20_memory.md R130, space 2): the bytes listed by address, in rising order; an unlisted address
reads as `Memory.unlisted`. -/
abbrev Memory := List Host.Cell

/-- The MODEL's own fields: what an operation in flight remembers between two PHY requests (log entry 9). -/
structure Work where
  /-- the next PHY request of the phase in progress -/
  micro : Micro
  /-- the handling of a target request in controller role -/
  request : RequestPhase
  /-- a byte received whose store waits for room in RXFIFO (spec/41_controller.md R288), with its `more` bit -/
  rxHold : Option (Byte × Bool)
  /-- the last byte a message received (spec/46_events.md R530) -/
  lastRx : Byte
  /-- the address operand of the one-shot command in flight -/
  opAddr : Addr7
  /-- the data operand of the one-shot command in flight (the effective address of SETDASA) -/
  opData : Addr7
  /-- PROBE: the legacy-I2C variant -/
  opI2c : Bool
  /-- PROBE: the trial in progress was acknowledged -/
  opOk : Bool
  /-- PROBE: the trial in progress, counted from 1 -/
  trial : Word
  /-- PROBE: the number of trials asked for -/
  trials : Word
  /-- the bound rx buffer of the transfer in flight: its address -/
  rxBase : Nat
  /-- the bound rx buffer of the transfer in flight: its size in bytes, 0 where none is bound -/
  rxCap : Word
  /-- DOVR was latched for the list CCC being received (spec/45_ccc_decoder.md R478, "once per CCC") -/
  listOvr : Bool
  /-- the DMA engine's own registers, as one token (`P_DMA_ABORT_STATE`) -/
  dmaEngine : Word
  /-- how many aborts under strategy DMA have drawn free values -/
  draws : Nat
deriving DecidableEq, Repr

/-- The MODEL's own fields: the environment (log entry 1). -/
structure Environment where
  /-- the implementation parameters -/
  params : Params
  /-- the turns to come, the next first -/
  agenda : List Turn
  /-- the PHY events not yet taken, the next first -/
  events : List PhyEvent
  /-- what the ENGINE step in progress (or the last one) was given -/
  cue : Cue
  /-- what the block has driven towards the PHY, the last first -/
  bus : List BusOut
  /-- the value the last host register read returned -/
  hostRead : Word
deriving DecidableEq, Repr

/-- The state of the machine. -/
structure State where
  /-- identity, lifecycle, command interface -/
  ctl : Control
  /-- error latch, results, interrupt registers -/
  rep : Report
  /-- counters and pointers -/
  cnt : Counters
  /-- FIFOs -/
  fifo : Fifos
  /-- configuration registers -/
  cfg : Setup
  /-- TGTSTATE -/
  tst : Grants
  /-- IBIREC, IBIDATA -/
  ibi : IbiRecord
  /-- DAA state -/
  daa : DaaState
  /-- DEC0..DEC3 -/
  dec : Decoded
  /-- the controller transaction in flight -/
  seq : Sequencer
  /-- the target path -/
  tgt : Target
  /-- snapshots and notification buffer -/
  snap : Snapshots
  /-- ARG0..ARG3 -/
  arg : Args
  /-- system memory -/
  mem : Memory
  /-- the model's own: an operation in flight -/
  work : Work
  /-- the model's own: the environment -/
  env : Environment
deriving DecidableEq, Repr

/-- The reasons the machine stops with a fault: none. Every error the spec names is latched and handled by the block
itself (spec/60_exceptions.md R570), so no step of this machine ends in a fault; the type is empty. -/
inductive Fault where
deriving DecidableEq, Repr

/-- The reasons the model refuses a step. -/
inductive Refusal where
  /-- An instruction without a meaning, raised by `exec` alone; no arm of `exec` raises it now. Safe: the model stops. -/
  | notModelled (mnemonic : String)
  /-- A host register access that is not 32 bits wide or not at a multiple of 4, raised by the host's turn: "a model
  refuses a program that makes one" (spec/20_memory.md R131, spec/93_implementation_defined.md U4). Safe: the model
  stops. -/
  | hostAccessShape
  /-- A parameter set that is not legal, raised by every step: "A model refuses other parameter sets"
  (spec/00_scope.md R14). Safe: the model stops. -/
  | illegalParameters
deriving DecidableEq, Repr

/-! ## Reset (spec/70_reset_and_hazards.md R620) -/

/-- The reset value of `Control`. -/
def Control.reset : Control :=
  { mode := .none, life := .reset, listen := false, cmdp := false, pendop := 0, tmo := false, recov := false,
    suspended := false, abortreq := false, strat := .poll }

/-- The reset value of `Report`. -/
def Report.reset : Report :=
  { callerr := 0, err := 0, code := 0, aux := 0, reserr := 0, pcode := 0, ier := 0, isr := 0, noten := 0 }

/-- The reset value of `Counters`. -/
def Counters.reset : Counters :=
  { datacnt := 0, msgcnt := 0, ctrlrem := 0, txrem := 0, rxrem := 0, ctrlptr := 0, txptr := 0, rxptr := 0, ctxaddr := 0 }

/-- The reset value of `Fifos`: all empty. -/
def Fifos.reset : Fifos := { cfifo := [], sfifo := [], txfifo := [], rxfifo := [] }

/-- The reset value of a Bus Device Table entry. -/
def BdtEntry.reset : BdtEntry :=
  { da := 0, v := false, ibiack := false, ibiden := false, crack := false, susp := false }

/-- The reset value of `Setup`: 0, but for DAABASE = 0x08. -/
def Setup.reset : Setup :=
  { txthr := false, rxthr := false, sfen := false, timing0 := 0, timing1 := 0, da := 0, dav := false, sa := 0,
    sav := false, bcr := 0, dcr := 0, pid0 := 0, pid1 := 0, mwl := 0, mrl := 0, hjack := false, daabase := 0x08,
    userdata := 0, bdt := Vector.replicate 4 BdtEntry.reset }

/-- The reset value of TGTSTATE: 0x1C, the three grants. -/
def Grants.reset : Grants :=
  { act := 0, enint := true, encr := true, enhj := true, rstact := 0, perr := false }

/-- The reset value of IBIREC and IBIDATA. -/
def IbiRecord.reset : IbiRecord := { addr := 0, rnw := false, cnt := 0, kind := 0, data := 0 }

/-- The reset value of the DAA state. -/
def DaaState.reset : DaaState :=
  { cnt := 0, pl0 := 0, pl1 := 0, da := 0, phase := .idle, next := 0, ptr := 0, room := 0 }

/-- The reset value of DEC0..DEC3. -/
def Decoded.reset : Decoded := { dec0 := 0, dec1 := 0, dec2 := 0, dec3 := 0 }

/-- The reset value of the controller transaction in flight. -/
def Sequencer.reset : Sequencer :=
  { phase := .idle, cur := 0, curdone := 0, frame := false, ccchdr := false, early := false, nackb := false,
    bws := false, ccclast := 0, handover := false }

/-- The reset value of the target path. -/
def Target.reset : Target :=
  { phase := .idle, ignstop := false, ccccur := 0, cccbuf := [], defbyte := 0, defv := false, rspk := 0, tgtlen := 0,
    tgtend := false, handoff := false, trq := .none }

/-- The reset value of a snapshot slot. -/
def Slot.reset : Slot :=
  { pend := false, da := 0, dav := false, mwl := 0, mrl := 0, rstact := 0, act := 0, enint := false, encr := false,
    enhj := false }

/-- The reset value of the snapshots and of the notification buffer. -/
def Snapshots.reset : Snapshots :=
  { slots := Vector.replicate 11 Slot.reset, info0 := 0, info1 := 0, nbufptr := 0, nbuflen := 0 }

/-- The reset value of ARG0..ARG3. -/
def Args.reset : Args := { arg0 := 0, arg1 := 0, arg2 := 0, arg3 := 0 }

/-- The power-on value of the model's own working fields. DESIGN CHOICE: log entry 9. -/
def Work.reset : Work :=
  { micro := .start, request := .idle, rxHold := none, lastRx := 0, opAddr := 0, opData := 0, opI2c := false,
    opOk := false, trial := 0, trials := 0, rxBase := 0, rxCap := 0, listOvr := false, dmaEngine := 0, draws := 0 }

/-- The power-on value of the environment: the standard parameters, no turn and no event to come. DESIGN CHOICE:
log entry 1. -/
def Environment.reset : Environment :=
  { params := Params.standard, agenda := [], events := [], cue := .answer .ok, bus := [], hostRead := 0 }

/-- The machine right after power-on reset (spec/70_reset_and_hazards.md R620, R623): every element of the block at its
reset value, no byte of system memory listed. -/
def State.reset : State :=
  { ctl := Control.reset, rep := Report.reset, cnt := Counters.reset, fifo := Fifos.reset, cfg := Setup.reset,
    tst := Grants.reset, ibi := IbiRecord.reset, daa := DaaState.reset, dec := Decoded.reset, seq := Sequencer.reset,
    tgt := Target.reset, snap := Snapshots.reset, arg := Args.reset, mem := [], work := Work.reset,
    env := Environment.reset }

end Sys2Proof.Machine
end

