-- ==== Sys2Proof/Machine/Memory.lean ====
section
/-! DEFINITION. System memory (spec/20_memory.md R130, R132, R138, R139): bytes at addresses of `P_ADDR_W` bits in one
canonical form, and the accesses of the encoder and the MOVER, which answer `mem_fault` where `P_MEMMAP` does not permit them. -/

namespace Sys2Proof.Machine

/-- What a byte that nothing has written reads as. DESIGN CHOICE, unsafe: log entry 4. -/
def Memory.unlisted : Byte := 0

/-- The byte at an address. -/
def Memory.read : Memory → Nat → Byte
  | [], _ => Memory.unlisted
  | (x, b) :: r, a => if x = a then b else Memory.read r a

/-- The list without its entry at an address. -/
def Memory.erase : Memory → Nat → Memory
  | [], _ => []
  | (x, b) :: r, a => if x = a then r else (x, b) :: Memory.erase r a

/-- The list with an entry put at its place in the rising order. -/
def Memory.insert : Memory → Nat → Byte → Memory
  | [], a, v => [(a, v)]
  | (x, b) :: r, a, v =>
    if a < x then (a, v) :: (x, b) :: r
    else if a = x then (a, v) :: r
    else (x, b) :: Memory.insert r a v

/-- A write of one byte; writing what an unlisted address reads as removes the entry. -/
def Memory.write (m : Memory) (a : Nat) (v : Byte) : Memory :=
  if v = Memory.unlisted then Memory.erase m a else Memory.insert m a v

/-- Every entry lies at `lo` or above and below `top`, in strictly rising order, and holds no unlisted value. -/
def Memory.wfFrom (top : Nat) : Nat → Memory → Bool
  | _, [] => true
  | lo, (x, b) :: r =>
    decide (lo ≤ x) && decide (x < top) && decide (b ≠ Memory.unlisted) && Memory.wfFrom top (x + 1) r

/-- The canonical form of a memory with addresses of `w` bits. -/
def Memory.wf (w : Nat) (m : Memory) : Bool := Memory.wfFrom (2 ^ w) 0 m

/-- The address `k` bytes after `a`, in `P_ADDR_W` bits (modulo 2^`P_ADDR_W`, spec/00_scope.md R13, R15; log entry 6). -/
def byteAt (s : State) (a k : Nat) : Nat := (a + k) % 2 ^ s.env.params.addrW

/-- The address that a 32-bit argument or field of memory names (log entry 6). -/
def addrOf (s : State) (v : Word) : Nat := byteAt s v.toNat 0

/-- A write of consecutive bytes at addresses of `w` bits. -/
def Memory.store (w : Nat) (m : Memory) (a : Nat) : List Byte → Memory
  | [] => m
  | b :: r => Memory.store w (Memory.write m (a % 2 ^ w) b) (a + 1) r

/-- The region covers the address. -/
def regionCovers (r : Region) (a : Nat) : Bool := decide (r.base ≤ a) && decide (a < r.base + r.size)

/-- A read at the address is not answered `mem_fault` (spec/20_memory.md R138). -/
def readable (s : State) (a : Nat) : Bool := s.env.params.memmap.all fun r => !regionCovers r a || r.readable

/-- A write at the address is not answered `mem_fault` (spec/20_memory.md R138). -/
def writable (s : State) (a : Nat) : Bool := s.env.params.memmap.all fun r => !regionCovers r a || r.writable

/-- The bytes of an access of `n` bytes at `a`. -/
def bytesAt (s : State) (a n : Nat) : List Byte := (List.range n).map fun k => Memory.read s.mem (byteAt s a k)

/-- `MemRead(a, n)` (spec/00_scope.md R16), byte by byte; `none` is `mem_fault`: an access is never split, so one byte that
is not readable faults the whole (log entry 5). -/
def memRead (s : State) (a n : Nat) : Option (List Byte) :=
  if (List.range n).all fun k => readable s (byteAt s a k) then some (bytesAt s a n) else none

/-- `MemWrite(a, n, v)` (spec/00_scope.md R16); `none` is `mem_fault`, and then no byte is written (log entry 5). -/
def memWrite (s : State) (a : Nat) (bs : List Byte) : Option State :=
  if (List.range bs.length).all fun k => writable s (byteAt s a k) then
    some { s with mem := Memory.store s.env.params.addrW s.mem a bs }
  else none

/-- A sequence of writes, stopping at the first `mem_fault`: the writes before it stay done
(spec/40_builder.md R240, R243). -/
def memWrites (s : State) : List (Nat × List Byte) → State × Bool
  | [] => (s, true)
  | (a, bs) :: r =>
    match memWrite s a bs with
    | none => (s, false)
    | some t => memWrites t r

/-- The 32-bit value of the first four of a list of bytes (spec/20_memory.md R132). -/
def wordOf : List Byte → Word
  | b0 :: b1 :: b2 :: b3 :: _ => le32 b0 b1 b2 b3
  | _ => 0

/-- The 32-bit field at an offset of a block of bytes. -/
def fieldWord (bs : List Byte) (off : Nat) : Word := wordOf (bs.drop off)

/-- The byte at an offset of a block of bytes. -/
def fieldByte (bs : List Byte) (off : Nat) : Byte := (bs.drop off).headD 0

end Sys2Proof.Machine
end

