-- ==== Sys2Proof/Machine/Operands.lean ====
section
/-! DEFINITION. Operand forms: the codes of names, the fields of control words and of descriptor records, valid addresses,
own address and Bus Device Table lookups, FIFO levels, thresholds and request bits, register packing, and the bytes of
GET responses (spec/10_state.md, spec/20_memory.md, spec/30_encoding.md, spec/42_fifo.md, spec/45_ccc_decoder.md). -/

namespace Sys2Proof.Machine

/-! ## Codes -/

/-- The result codes that are ever written (spec/30_encoding.md R175). -/
inductive Code where
  | ok
  | timeout
  | busy
  | invalidParam
  | protocolError
  | refused
  | nacked
  | aborted
deriving DecidableEq, Repr

/-- The encoding of a result code (R175). -/
def codeBits : Code → BitVec 4
  | .ok => 0
  | .timeout => 1
  | .busy => 2
  | .invalidParam => 3
  | .protocolError => 4
  | .refused => 5
  | .nacked => 6
  | .aborted => 7

/-- MODE as the STATUS register reads it (spec/10_state.md R42). -/
def modeBits : Mode → BitVec 2
  | .none => 0
  | .controller => 1
  | .target => 2

/-- STATE as the STATUS register reads it (spec/10_state.md R43). -/
def lifeBits : Life → Byte
  | .reset => 0x00
  | .init => 0x01
  | .idle => 0x02
  | .tx => 0x11
  | .rx => 0x12
  | .txrx => 0x13
  | .daa => 0x14
  | .tgtreq => 0x15
  | .abort => 0x20

/-- The busy states, bit 4 of STATE (spec/10_state.md R43). -/
def lifeBusy (l : Life) : Bool := (lifeBits l).getLsbD 4

/-- OP of the host commands of class L (spec/30_encoding.md R171). -/
def opInit : Byte := 0x10
def opStart : Byte := 0x20
def opDaa : Byte := 0x22
def opSetdasa : Byte := 0x23
def opProbe : Byte := 0x24
def opBusRecover : Byte := 0x25
def opTgtTx : Byte := 0x30
def opTgtRx : Byte := 0x31
def opHjReq : Byte := 0x32
def opCrReq : Byte := 0x33
def opIbiReq : Byte := 0x34

/-- The command with this OP is pending (spec/10_state.md R46). -/
def pending (op : Byte) (s : State) : Bool := s.ctl.cmdp && s.ctl.pendop == op

/-! ## Addresses -/

/-- The broadcast address (spec/30_encoding.md R225). -/
def broadcastAddr : Addr7 := 0x7E

/-- The hot-join address (spec/30_encoding.md R225). -/
def hotJoinAddr : Addr7 := 0x02

/-- A valid dynamic address (spec/30_encoding.md R230). -/
def validDa (a : Addr7) : Bool :=
  decide (0x08 ≤ a.toNat) && decide (a.toNat ≤ 0x7D) &&
    !([0x3E, 0x5E, 0x6E, 0x76, 0x7A, 0x7C].contains a.toNat)

/-- The addresses that latch TE0 in target role (spec/44_target.md R427 case 2). -/
def te0Addr (a : Addr7) : Bool := [0x3E, 0x5E, 0x6E, 0x76, 0x7A, 0x7C, 0x7F].contains a.toNat

/-- `own(a)` (spec/44_target.md R427). -/
def own (s : State) (a : Addr7) : Bool :=
  (s.cfg.dav && a == s.cfg.da) || (!s.cfg.dav && s.cfg.sav && a == s.cfg.sa)

/-- `bdt_find(a7)` (spec/10_state.md R72): the index of the lowest valid entry that holds the address. -/
def bdtFind (s : State) (a : Addr7) : Option (Fin 4) :=
  ([0, 1, 2, 3] : List (Fin 4)).find? fun i => s.cfg.bdt[i].v && s.cfg.bdt[i].da == a

/-- The allocator may offer this address (spec/43_daa.md R386). -/
def allocatable (s : State) (a : Addr7) : Bool :=
  validDa a && (bdtFind s a).isNone && !(s.cfg.dav && a == s.cfg.da)

/-- `alloc()` (spec/43_daa.md R386): the smallest allocatable address from DAANEXT up. -/
def alloc (s : State) : Option Addr7 :=
  ((List.range 0x7E).map (BitVec.ofNat 7)).find? fun a => decide (s.daa.next.toNat ≤ a.toNat) && allocatable s a

/-- The effective address of SETDASA (spec/41_controller.md R294): 0 means the static address. -/
def effectiveDa (sa da : Addr7) : Addr7 := if da = 0 then sa else da

/-- The low seven bits of an argument register. -/
def argAddr (w : Word) : Addr7 := bitField w 0 7

/-- An argument that must fit seven bits does. -/
def argFits7 (w : Word) : Bool := w >>> 7 == 0#32

/-- An address that must be a multiple of four is one (spec/20_memory.md R139). -/
def aligned4 (w : Word) : Bool := bitField w 0 2 == 0#2

/-! ## FIFO controller -/

/-- Capacity tests (spec/10_state.md R61). -/
def cfifoFull (s : State) : Bool := decide (s.env.params.cfifoDepth ≤ s.fifo.cfifo.length)
def sfifoFull (s : State) : Bool := decide (s.env.params.sfifoDepth ≤ s.fifo.sfifo.length)
def txfifoFull (s : State) : Bool := decide (s.env.params.txfifoDepth ≤ s.fifo.txfifo.length)
def rxfifoFull (s : State) : Bool := decide (s.env.params.rxfifoDepth ≤ s.fifo.rxfifo.length)

/-- thr_tx (spec/42_fifo.md R349). -/
def thrTx (s : State) : Nat := min (if s.cfg.txthr then 4 else 1) s.env.params.txfifoDepth

/-- thr_rx (spec/42_fifo.md R349). -/
def thrRx (s : State) : Nat := min (if s.cfg.rxthr then 4 else 1) s.env.params.rxfifoDepth

/-- The free bytes of TXFIFO. -/
def txFree (s : State) : Nat := s.env.params.txfifoDepth - s.fifo.txfifo.length

/-- TXREQ with its near-end clause (spec/10_state.md R61, R62). -/
def txReq (s : State) : Bool :=
  decide (thrTx s ≤ txFree s) ||
    (decide (0 < s.cnt.txrem.toNat) && decide (s.cnt.txrem.toNat < thrTx s) && decide (s.cnt.txrem.toNat ≤ txFree s))

/-- RXREQ with its near-end clause (spec/10_state.md R61, R62). -/
def rxReq (s : State) : Bool :=
  decide (thrRx s ≤ s.fifo.rxfifo.length) ||
    (decide (0 < s.fifo.rxfifo.length) && decide (s.fifo.rxfifo.length = s.cnt.rxrem.toNat))

/-- FIFOREQ (spec/42_fifo.md R348); it reads 0 in RESET (spec/70_reset_and_hazards.md R621). -/
def fifoReqWord (s : State) : Word :=
  if s.ctl.life = .reset then 0
  else place (bit (!cfifoFull s)) 0 ||| place (bit (!s.fifo.sfifo.isEmpty)) 1 ||| place (bit (txReq s)) 2 |||
    place (bit (rxReq s)) 3

/-- FIFOLVL0 (spec/42_fifo.md R348). -/
def fifoLvl0Word (s : State) : Word :=
  place (BitVec.ofNat 16 s.fifo.cfifo.length) 0 ||| place (BitVec.ofNat 16 s.fifo.sfifo.length) 16

/-- FIFOLVL1 (spec/42_fifo.md R348). -/
def fifoLvl1Word (s : State) : Word :=
  place (BitVec.ofNat 16 s.fifo.txfifo.length) 0 ||| place (BitVec.ofNat 16 s.fifo.rxfifo.length) 16

/-! ## Registers as the host reads them (spec/10_state.md R84) -/

/-- RESULT (R53). -/
def resultWord (s : State) : Word := place s.rep.code 0 ||| place s.rep.aux 16

/-- STATUS (R42–R49). -/
def statusWord (s : State) : Word :=
  place (lifeBits s.ctl.life) 0 ||| place (modeBits s.ctl.mode) 8 ||| place (bit s.ctl.listen) 10 |||
    place (bit s.ctl.recov) 11 ||| place (bit s.ctl.cmdp) 12 ||| place (bit s.ctl.suspended) 13 |||
    place (bit s.ctl.abortreq) 14

/-- ERR; it reads 0 without error tracking (R52). -/
def errWord (s : State) : Word := if s.env.params.errTrack then place s.rep.err 0 else 0

/-- FIFOCFG (R62). -/
def fifocfgWord (s : State) : Word :=
  place (bit s.cfg.txthr) 0 ||| place (bit s.cfg.rxthr) 1 ||| place (bit s.cfg.sfen) 2

/-- OWNADDR (R64). -/
def ownaddrWord (s : State) : Word :=
  place s.cfg.da 0 ||| place (bit s.cfg.dav) 7 ||| place s.cfg.sa 8 ||| place (bit s.cfg.sav) 15

/-- TGTCHAR (R65). -/
def tgtcharWord (s : State) : Word := place s.cfg.bcr 0 ||| place s.cfg.dcr 8

/-- MAXLEN (R66). -/
def maxlenWord (s : State) : Word := place s.cfg.mwl 0 ||| place s.cfg.mrl 16

/-- TGTSTATE (R67). -/
def tgtstateWord (s : State) : Word :=
  place s.tst.act 0 ||| place (bit s.tst.enint) 2 ||| place (bit s.tst.encr) 3 ||| place (bit s.tst.enhj) 4 |||
    place s.tst.rstact 8 ||| place (bit s.tst.perr) 16

/-- A Bus Device Table entry (R71). -/
def bdtWord (e : BdtEntry) : Word :=
  place e.da 0 ||| place (bit e.v) 7 ||| place (bit e.ibiack) 8 ||| place (bit e.ibiden) 9 |||
    place (bit e.crack) 10 ||| place (bit e.susp) 11

/-- The entry of a written word (R71). -/
def bdtOf (w : Word) : BdtEntry :=
  { da := bitField w 0 7, v := w.getLsbD 7, ibiack := w.getLsbD 8, ibiden := w.getLsbD 9, crack := w.getLsbD 10,
    susp := w.getLsbD 11 }

/-- IBIREC (R73). -/
def ibirecWord (s : State) : Word :=
  place s.ibi.addr 0 ||| place (bit s.ibi.rnw) 7 ||| place s.ibi.cnt 8 ||| place s.ibi.kind 16

/-- The bits of ISR, IER and NOTEN that are not reserved (spec/30_encoding.md R205). -/
def flagMask : Word := 0x07FF03FF#32

/-- The controller-side notification ids 5, 6, 7 (spec/30_encoding.md R205). -/
def ctrlIdMask : Word := 0x000000E0#32

/-- The target-side notification ids 16..26 (spec/30_encoding.md R205). -/
def tgtIdMask : Word := 0x07FF0000#32

/-- The notification ids of a mode (spec/46_events.md R540). -/
def idMask : Mode → Word
  | .none => 0
  | .controller => ctrlIdMask
  | .target => tgtIdMask

/-! ## Descriptor records (spec/20_memory.md R140) -/

/-- A descriptor record. -/
structure Descriptor where
  addr : Byte
  ccc : Byte
  dir : Byte
  rsvd : Byte
  count : Word
deriving DecidableEq, Repr

/-- The descriptor of eight bytes. -/
def descriptorOf (bs : List Byte) : Descriptor :=
  { addr := fieldByte bs 0, ccc := fieldByte bs 1, dir := fieldByte bs 2, rsvd := fieldByte bs 3,
    count := fieldWord bs 4 }

/-- The seven address bits of a descriptor. -/
def descAddr (d : Descriptor) : Addr7 := bitField d.addr 0 7

/-- A descriptor that reads (DIR = 1). -/
def descReads (d : Descriptor) : Bool := d.dir == 1#8

/-! ## Status words (spec/30_encoding.md R190) -/

/-- RNW of the word being executed; a CCC word has none (log entry 20). -/
def curRnw (s : State) : Bool := s.seq.cur.getLsbD 16 && bitField s.seq.cur 27 4 != 1#4

/-- `status(CUR)` (spec/41_controller.md R290). XDCNT counts the bytes of CUR's own message: log entry 41. -/
def statusOfCur (s : State) : Word :=
  place s.seq.curdone 0 ||| place (bit (curRnw s)) 16 ||| place (bit s.seq.early) 17 ||| place (bit s.seq.nackb) 18 |||
    place (bitField s.cnt.msgcnt 0 8) 24

/-! ## The target path -/

/-- CCCN (spec/10_state.md R78; log entry 29). -/
def cccn (s : State) : Nat := s.tgt.cccbuf.length

/-- The limit that a nonzero MAXLEN field puts on TGTLEN (spec/44_target.md R421, R423). -/
def limited (len : Word) (maxlen : BitVec 16) : Word :=
  if maxlen = 0 then len else if len.toNat ≤ maxlen.toNat then len else maxlen.setWidth 32

/-- lim of a private read (spec/44_target.md R421). -/
def readLimit (s : State) : Word := limited s.tgt.tgtlen s.cfg.mrl

/-- lim of a private write (spec/44_target.md R423). -/
def writeLimit (s : State) : Word := limited s.tgt.tgtlen s.cfg.mwl

/-- The own PID (spec/10_state.md R65). -/
def ownPid (s : State) : BitVec 48 := s.cfg.pid1 ++ s.cfg.pid0

/-- The own ENTDAA payload (spec/45_ccc_decoder.md R468). -/
def ownPayload (s : State) : BitVec 64 := ownPid s ++ s.cfg.bcr ++ s.cfg.dcr

/-- The two bytes of a 16-bit value, most significant first (spec/20_memory.md R133). -/
def be16 (v : BitVec 16) : List Byte := [bitField v 8 8, bitField v 0 8]

/-- The 16-bit value of two bytes, most significant first. -/
def ofBe16 (b0 b1 : Byte) : BitVec 16 := b0 ++ b1

/-- This target advertises itself controller-capable (spec/30_encoding.md R221). -/
def controllerCapable (s : State) : Bool := bitField s.cfg.bcr 6 2 == 1#2

/-- The number of 1 bits of a byte is odd. -/
def oddParity (b : Byte) : Bool :=
  ((List.range 8).map fun i => b.getLsbD i).foldl xor false

/-- An address in bits 7:1 of a byte. -/
def addrByte (a : Addr7) (low : Bool) : Byte := a ++ bit low

/-- The GETMWL response (spec/45_ccc_decoder.md R480). -/
def respMwl (s : State) : List Byte := be16 s.cfg.mwl

/-- The GETMRL response (R481). -/
def respMrl (s : State) : List Byte :=
  be16 s.cfg.mrl ++ (if s.cfg.bcr.getLsbD 2 then [BitVec.ofNat 8 s.env.params.ibiMax] else [])

/-- The GETPID response (R482). -/
def respPid (s : State) : List Byte :=
  [bitField (ownPid s) 40 8, bitField (ownPid s) 32 8, bitField (ownPid s) 24 8, bitField (ownPid s) 16 8,
    bitField (ownPid s) 8 8, bitField (ownPid s) 0 8]

/-- The GETBCR response (R483). -/
def respBcr (s : State) : List Byte := [s.cfg.bcr]

/-- The GETDCR response (R484). -/
def respDcr (s : State) : List Byte := [s.cfg.dcr]

/-- The GETSTATUS response (R485). -/
def respStatus (s : State) : List Byte := [0#8, s.tst.act ++ bit s.tst.perr ++ 0#5]

/-- The GETACCCR response (R486): the own address with odd parity over the byte. -/
def respAcccr (s : State) : List Byte := [addrByte s.cfg.da (!oddParity (addrByte s.cfg.da false))]

/-- The direct RSTACT response (R473). -/
def respRstact (_ : State) : List Byte := [0#8]

end Sys2Proof.Machine
end

