-- ==== Sys2Proof/Machine/Flags.lean ====
section
/-! DEFINITION. The error latch, the interrupt flags, the notifications with their snapshots, and the interrupt lines
(spec/60_exceptions.md R560, R566, R567; spec/30_encoding.md R205; spec/46_events.md R542, R545;
spec/10_state.md R45, R54). -/

namespace Sys2Proof.Machine

/-- The number of an error code (spec/60_exceptions.md R560). -/
def errIndex : ErrCode → Nat
  | .ce0 => 0
  | .ce1 => 1
  | .ce2 => 2
  | .ce3 => 3
  | .te0 => 4
  | .te1 => 5
  | .te2 => 6
  | .te3 => 7
  | .te4 => 8
  | .te5 => 9
  | .te6 => 10
  | .stall => 11
  | .covr => 12
  | .dovr => 13
  | .anack => 14
  | .dnack => 15
  | .derr => 16
  | .dma => 17
  | .dynaddr => 18

/-- The bit of an error code in ERR, CALLERR and RESERR (R560). -/
def errBit (e : ErrCode) : BitVec 19 := 1#19 <<< errIndex e

/-- The bit number of an interrupt flag (spec/30_encoding.md R205). -/
def flagIndex : Flag → Nat
  | .xferDone => 0
  | .err => 1
  | .abortDone => 2
  | .daaDev => 3
  | .daaDone => 4
  | .ibi => 5
  | .crreq => 6
  | .hj => 7
  | .tgtDone => 8
  | .treqDone => 9
  | .nGetacccr => 16
  | .nIbiEnd => 17
  | .nDaUpd => 18
  | .nGet => 19
  | .nGetStatus => 20
  | .nMaxLen => 21
  | .nRstAct => 22
  | .nActState => 23
  | .nEvent => 24
  | .nWakeup => 25
  | .nDefList => 26

/-- The bit of an interrupt flag in ISR, IER and NOTEN (R205). -/
def flagBit (f : Flag) : Word := 1#32 <<< flagIndex f

/-- `latch({e})` (spec/60_exceptions.md R566). -/
def latch (e : ErrCode) (s : State) : State :=
  { s with
    rep.err := if s.env.params.errTrack then s.rep.err ||| errBit e else s.rep.err
    rep.callerr := if s.ctl.cmdp then s.rep.callerr ||| errBit e else s.rep.callerr }

/-- `flag(X)` (spec/10_state.md R55). -/
def flag (f : Flag) (s : State) : State := { s with rep.isr := s.rep.isr ||| flagBit f }

/-- Latching without halting (spec/60_exceptions.md R567): `latch({e})`, `flag(ERR)`. -/
def latchFlag (e : ErrCode) (s : State) : State := flag .err (latch e s)

/-- A target-side detection of the block (R575, R567): PERR, `latch({e})`, `flag(ERR)`. Log entry 13. -/
def detect (e : ErrCode) (s : State) : State := latchFlag e { s with tst.perr := true }

/-- The snapshot slot of a target notification id (spec/10_state.md R81): id n at index n − 16. -/
def slotOf : Flag → Option (Fin 11)
  | .nGetacccr => some 0
  | .nIbiEnd => some 1
  | .nDaUpd => some 2
  | .nGet => some 3
  | .nGetStatus => some 4
  | .nMaxLen => some 5
  | .nRstAct => some 6
  | .nActState => some 7
  | .nEvent => some 8
  | .nWakeup => some 9
  | .nDefList => some 10
  | .xferDone => none
  | .err => none
  | .abortDone => none
  | .daaDev => none
  | .daaDone => none
  | .ibi => none
  | .crreq => none
  | .hj => none
  | .tgtDone => none
  | .treqDone => none

/-- The record a snapshot captures (spec/46_events.md R545). -/
def snapshotOf (s : State) : Slot :=
  { pend := true, da := s.cfg.da, dav := s.cfg.dav, mwl := s.cfg.mwl, mrl := s.cfg.mrl, rstact := s.tst.rstact,
    act := s.tst.act, enint := s.tst.enint, encr := s.tst.encr, enhj := s.tst.enhj }

/-- Snapshot capture (R545): only a target id has a slot. -/
def capture (f : Flag) (s : State) : State :=
  match slotOf f with
  | some i => { s with snap.slots := s.snap.slots.set i (snapshotOf s) }
  | none => s

/-- The NOTEN bit of a notification is 1 (spec/10_state.md R58). -/
def notifies (f : Flag) (s : State) : Bool := s.rep.noten.getLsbD (flagIndex f)

/-- `notify(id)` (spec/46_events.md R542). -/
def notify (f : Flag) (s : State) : State := if notifies f s then flag f (capture f s) else s

/-- What LISTEN is (spec/10_state.md R45). -/
def listenOf (m : Mode) (noten : Word) : Bool := m == .target && noten &&& tgtIdMask != 0#32

/-- LISTEN recomputed (R45). -/
def relisten (s : State) : State := { s with ctl.listen := listenOf s.ctl.mode s.rep.noten }

/-- IRQ_ER (spec/10_state.md R54). -/
def irqEr (s : State) : Bool := s.rep.isr.getLsbD 1 && s.rep.ier.getLsbD 1

/-- IRQ_EV (R54). -/
def irqEv (s : State) : Bool := s.rep.isr &&& s.rep.ier &&& ~~~flagBit .err != 0#32

/-- IRQ (R54). -/
def irq (s : State) : Bool := irqEr s || irqEv s

end Sys2Proof.Machine
end

