-- ==== Sys2Proof/Machine/Ops.lean ====
section
/-! DEFINITION. The operations the instructions share: PHY requests and their answers, rejection, acceptance and completion
of commands, the error-handling sequence (the block's exception entry), the abort and timeout halts, reset, and the data
bytes the engine takes from and gives to the FIFOs (spec/00_scope.md R9, R17; spec/41_controller.md R281, R283, R288,
R293, R297; spec/60_exceptions.md R570; spec/70_reset_and_hazards.md R620). -/

namespace Sys2Proof.Machine

/-! ## The PHY (spec/00_scope.md R9) -/

/-- The error kinds the PHY may answer a controller request with (spec/60_exceptions.md R561). -/
def controllerKind : ErrCode → Bool
  | .ce0 => true
  | .ce1 => true
  | .ce3 => true
  | .stall => true
  | _ => false

/-- The error kinds the PHY may answer a target request with (R561). -/
def targetKind : ErrCode → Bool
  | .te6 => true
  | .stall => true
  | _ => false

/-- The error kinds of `ev_err` (R561). -/
def eventKind : ErrCode → Bool
  | .te2 => true
  | .te3 => true
  | .te4 => true
  | .te6 => true
  | .stall => true
  | _ => false

/-- The answers a request admits (spec/00_scope.md R9). Vector E7 of spec/95_test_vectors.md answers a controller's read
`stopped`, which R9 does not admit for RBYTE and is not admitted here: log entry 21. -/
def admits (r : PhyReq) (a : PhyAnswer) : Bool :=
  match r, a with
  | .start, .ok => true
  | .start, .arb _ _ => true
  | .rstart, .ok => true
  | .stop, .ok => true
  | .addr _ _, .ack => true
  | .addr _ _, .nack => true
  | .addr _ _, .err k => controllerKind k
  | .wbyte _ _, .ok => true
  | .wbyte _ i2c, .nack => i2c
  | .wbyte _ _, .err k => controllerKind k
  | .rbyte _ _, .byte _ _ => true
  | .rbyte _ _, .err k => controllerKind k
  | .daaRead, .payload _ => true
  | .daaRead, .err k => controllerKind k
  | .daaWrite _, .ack => true
  | .daaWrite _, .nack => true
  | .daaWrite _, .err k => controllerKind k
  | .recover, .ok => true
  | .reqAck _, .ok => true
  | .treq _ _, .ack => true
  | .treq _ _, .nack => true
  | .treq _ _, .lost => true
  | .treq _ _, .err k => targetKind k
  | .tbyte _ _, .ok => true
  | .tbyte _ _, .stopped => true
  | .tbyte _ _, .err k => targetKind k
  | _, _ => false

/-- The block drives something towards the PHY. -/
def drive (o : BusOut) (s : State) : State := { s with env.bus := o :: s.env.bus }

/-- `phy(req)` (spec/00_scope.md R16): the request and its answer in one step. An answer that the request does not admit
cannot occur (R10): the step does nothing (log entry 7). -/
def phy (r : PhyReq) (k : PhyAnswer → State → State) (s : State) : State :=
  match s.env.cue with
  | .answer a => if admits r a then k a (drive (.req r) s) else s
  | .event _ => s

/-! ## Rejection, acceptance, completion -/

/-- "Reject with X" of a class-L command (spec/00_scope.md R17). -/
def reject (c : Code) (s : State) : State := { s with rep.code := codeBits c, rep.aux := 0, rep.reserr := 0 }

/-- The result of a class-P or class-I command (spec/10_state.md R88). -/
def presult (c : Code) (s : State) : State := { s with rep.pcode := codeBits c }

/-- The checks 1 to 5 of spec/41_controller.md R281, in their order; `some c` rejects with `c`. -/
def gate (mode : Mode) (life : Life) (needsBus : Bool) (strats : List Strat) (st : Strat) (s : State) : Option Code :=
  if s.ctl.mode ≠ mode then some .busy
  else if s.ctl.cmdp then some .busy
  else if s.ctl.life ≠ life then some .busy
  else if needsBus && s.ctl.recov then some .busy
  else if !strats.contains st then some .invalidParam
  else if st == .dma && !s.env.params.dma then some .invalidParam
  else none

/-- What an operation remembers, before its first request. -/
def freshWork (s : State) : State := { s with work.micro := .start, work.rxHold := none }

/-- Nothing is remembered: no operation in flight, no target request in handling. -/
def clearWork (s : State) : State := { freshWork s with work.request := .idle }

/-- Acceptance of a class-L command (spec/41_controller.md R281). A target request in handling is handled to its end first
(spec/46_events.md R521; log entry 39). -/
def accept (op : Byte) (st : Strat) (timeoutArg : Word) (s : State) : State :=
  freshWork
    { s with
      ctl.cmdp := true
      ctl.pendop := op
      ctl.tmo := st == .poll && timeoutArg != 0#32
      ctl.strat := st
      rep.callerr := 0 }

/-- A class-L command: the gate, its own argument checks, its acceptance actions (spec/41_controller.md R281). -/
def longCommand (g : Option Code) (argsOk : Bool) (act : State → State) (s : State) : State :=
  match g with
  | some c => reject c s
  | none => if argsOk then act s else reject .invalidParam s

/-- `finish(code, aux)` (spec/41_controller.md R283). -/
def finish (c : Code) (aux : BitVec 16) (s : State) : State :=
  { s with
    rep.code := codeBits c
    rep.aux := aux
    rep.reserr := s.rep.callerr
    ctl.cmdp := false
    ctl.tmo := false }

/-- STATE <- v. -/
def setLife (l : Life) (s : State) : State := { s with ctl.life := l }

/-- The count the pending command reports (spec/60_exceptions.md R570). -/
def report (s : State) : BitVec 16 :=
  if s.ctl.pendop = opStart then s.cnt.msgcnt
  else if s.ctl.pendop = opDaa then s.daa.cnt.setWidth 16
  else if s.ctl.pendop = opTgtTx ∨ s.ctl.pendop = opTgtRx ∨ s.ctl.pendop = opIbiReq then bitField s.cnt.datacnt 0 16
  else 0

/-! ## Halts -/

/-- All four FIFOs flushed and the three counters 0 (spec/41_controller.md R293, spec/60_exceptions.md R570). -/
def drainAll (s : State) : State :=
  { s with
    fifo := { cfifo := [], sfifo := [], txfifo := [], rxfifo := [] }
    cnt.ctrlrem := 0
    cnt.txrem := 0
    cnt.rxrem := 0 }

/-- The open frame of a controller ends; `stop` says whether STOP is driven. -/
def closeFrame (stop : Bool) (s : State) : State :=
  if s.ctl.mode = .controller ∧ s.seq.frame = true then
    { (if stop then drive (.req .stop) s else s) with seq.frame := false }
  else s

/-- RECOV is set when CE1 is latched in controller role (spec/10_state.md R47, spec/60_exceptions.md R573). -/
def needRecovery (e : ErrCode) (s : State) : State :=
  if e = .ce1 ∧ s.ctl.mode = .controller then { s with ctl.recov := true } else s

/-- Part (b) of the error-handling sequence: the halt (spec/60_exceptions.md R570). The handling of a target request in
progress is dropped with the frame: log entry 51. -/
def errorHalt (e : ErrCode) (s : State) : State :=
  let s := closeFrame (decide (e ≠ .ce1)) s
  let s := if s.ctl.mode = .target then { s with tgt.phase := .ignore, tgt.ignstop := false } else s
  let s := clearWork (drainAll s)
  { s with
    seq.phase := .idle
    daa.phase := .idle
    tgt.trq := .none
    seq.ccchdr := false
    seq.handover := false
    ctl.suspended := false
    tgt.tgtend := false }

/-- The pending command is a target request. -/
def requestPending (s : State) : Bool := pending opHjReq s || pending opCrReq s || pending opIbiReq s

/-- TREQ_DONE is flagged when the command that ends is a target request (spec/30_encoding.md R205: any outcome; log
entry 44). -/
def flagRequest (s : State) : State := if requestPending s then flag .treqDone s else s

/-- Part (c): Idle and PROTOCOL_ERROR, or ABORT left pending (spec/60_exceptions.md R570, R574). -/
def errorEnd (s : State) : State :=
  if s.ctl.abortreq then s
  else if s.ctl.cmdp then finish .protocolError (report s) (setLife .idle (flagRequest s))
  else s

/-- `raise Error({e})` (spec/60_exceptions.md R570): the block's exception. There is nothing to return from (R572). -/
def raiseError (e : ErrCode) (s : State) : State :=
  errorEnd (flag .err (errorHalt e (needRecovery e (latch e s))))

/-- The halt that an abort and a timeout share (spec/41_controller.md R293, R297). The handling of a target request in
progress is dropped with the frame: log entry 51. -/
def commandHalt (s : State) : State :=
  let s := closeFrame true s
  let s := if s.ctl.mode = .target then { s with tgt.phase := .idle } else s
  let s := clearWork (drainAll s)
  { s with seq.phase := .idle, tgt.trq := .none, seq.ccchdr := false }

/-- The bytes of the bound rx buffer past DATACNT after an abort under strategy DMA: each writable byte takes a free
value (`P_DMA_ABORT_STATE`, spec/93_implementation_defined.md U2; log entry 3). -/
def dmaAbortBytes (s : State) (n : Nat) : Nat → State
  | 0 => s
  | k + 1 =>
    let t := dmaAbortBytes s n k
    let a := byteAt s (s.work.rxBase + s.cnt.datacnt.toNat) k
    if writable s a then { t with mem := Memory.write t.mem a (Config.dmaAbortByte n a) } else t

/-- The DMA engine's own state after an abort under strategy DMA (`P_DMA_ABORT_STATE`; log entry 3). -/
def dmaAbort (s : State) : State :=
  if s.ctl.strat = .dma then
    let t := dmaAbortBytes s s.work.draws (s.work.rxCap.toNat - s.cnt.datacnt.toNat)
    { t with work.dmaEngine := Config.dmaAbortState s.work.draws, work.draws := s.work.draws + 1 }
  else s

/-- Abort confirmation (spec/41_controller.md R293). TREQ_DONE is not flagged (spec/95_test_vectors.md Q11). -/
def abortConfirm (s : State) : State :=
  let s := dmaAbort (commandHalt s)
  let s := flag .abortDone (setLife .idle { s with ctl.abortreq := false })
  finish .aborted (report s) s

/-- The effect of the ENV event `timeout` (spec/41_controller.md R297). -/
def timeoutHalt (s : State) : State :=
  let s := setLife .idle (flagRequest { commandHalt s with daa.phase := .idle })
  finish .timeout (report s) s

/-- Every element of the block takes its reset value; system memory, the bus, the DMA engine's own registers and the
environment do not (spec/70_reset_and_hazards.md R620, R622). -/
def resetBlock (s : State) : State :=
  { State.reset with
    mem := s.mem
    env := s.env
    work := { Work.reset with dmaEngine := s.work.dmaEngine, draws := s.work.draws } }

/-! ## Data bytes (spec/41_controller.md R288) -/

/-- `next_tx_byte()`: hold while the MOVER can still deliver, DOVR when nobody can. `k` gets the head of TXFIFO and pops it
itself when its byte has gone out. -/
def nextTxByte (k : Byte → State → State) (s : State) : State :=
  match s.fifo.txfifo with
  | b :: _ => k b s
  | [] => if 0 < s.cnt.txrem.toNat then s else raiseError .dovr s

/-- TXFIFO loses its head. -/
def popTx (s : State) : State := { s with fifo.txfifo := s.fifo.txfifo.tail }

/-- One data byte has moved on the bus: DATACNT += 1 (spec/10_state.md R56). -/
def countByte (s : State) : State := { s with cnt.datacnt := s.cnt.datacnt + 1 }

/-- One data byte of CUR has moved: DATACNT += 1, CURDONE += 1. -/
def countCur (s : State) : State := { countByte s with seq.curdone := s.seq.curdone + 1 }

/-- `store_rx_byte(b)`: push; or hold, keeping the byte, until the MOVER pops; or DOVR. `k` goes on after the push. -/
def storeRxByte (b : Byte) (more : Bool) (k : State → State) (s : State) : State :=
  if rxfifoFull s then
    if s.fifo.rxfifo.length < s.cnt.rxrem.toNat then { s with work.rxHold := some (b, more) } else raiseError .dovr s
  else
    k { s with fifo.rxfifo := s.fifo.rxfifo ++ [b], work.rxHold := none, work.lastRx := b }

end Sys2Proof.Machine
end

