-- ==== Sys2Proof/Machine/Builder.lean ====
section
/-! DEFINITION. The message descriptor encoder (spec/40_builder.md): CTX_RESET, CTX_BIND, BUILD_PRIVATE and BUILD_CCC, with
the validation, the control words and the context header the two builds share. Class P: they touch only system memory
and PRESULT (R251). -/

namespace Sys2Proof.Machine

/-- The end of a class-P command that only writes memory: OK, or INVALID_PARAM when a write faulted. -/
def endWrites (r : State × Bool) : State := presult (if r.2 then .ok else .invalidParam) r.1

/-- The writes of CTX_RESET: 48 bytes of zero, one access each (spec/40_builder.md R240). -/
def resetWrites (ctx : Nat) : List (Nat × List Byte) := (List.range 48).map fun k => (ctx + k, [0#8])

/-- CTX_RESET (spec/40_builder.md R240). -/
def execCtxReset (_strat : Strat) (_sub : Byte) (s : State) : Host.Outcome State Fault Refusal :=
  .next (if aligned4 s.arg.arg0 then endWrites (memWrites s (resetWrites s.arg.arg0.toNat)) else presult .invalidParam s)

/-- The writes of CTX_BIND (spec/40_builder.md R241). -/
def bindWrites (sel : Byte) (ctx : Nat) (b c : Word) : List (Nat × List Byte) :=
  [(ctx + 8 * sel.toNat, bytes32 b), (ctx + 8 * sel.toNat + 4, bytes32 c), (ctx + 0x25, [0#8])]

/-- The argument checks of CTX_BIND (R241). -/
def bindOk (sel : Byte) (ctx b : Word) : Bool :=
  aligned4 ctx && decide (sel.toNat ≤ 2) && (sel != 0#8 || aligned4 b)

/-- CTX_BIND (spec/40_builder.md R241). -/
def execCtxBind (_strat : Strat) (sub : Byte) (s : State) : Host.Outcome State Fault Refusal :=
  .next
    (if bindOk sub s.arg.arg0 s.arg.arg1 then
      endWrites (memWrites s (bindWrites sub s.arg.arg0.toNat s.arg.arg1 s.arg.arg2))
    else presult .invalidParam s)

/-! ## Validation (spec/40_builder.md R242, R243) -/

/-- words(N) (R242). -/
def wordsFor (cls : MsgClass) (n : Nat) : Nat := if cls = .cccDirect then 2 * n else n

/-- dbn (R242): 1 when a CCC descriptor carries a defining byte. -/
def dbn (m : ModeByte) : Nat := if m.cls.isCcc && m.db then 1 else 0

/-- A descriptor that sends its COUNT bytes: a write, or any CCC-broadcast descriptor. -/
def descSends (m : ModeByte) (d : Descriptor) : Bool := !descReads d || m.cls == .cccBroadcast

/-- tx_total (spec/40_builder.md R248). -/
def txTotal (m : ModeByte) (ds : List Descriptor) : Nat :=
  (ds.map fun d => if descSends m d then d.count.toNat else dbn m).sum

/-- rx_total (spec/40_builder.md R248). -/
def rxTotal (m : ModeByte) (ds : List Descriptor) : Nat :=
  (ds.map fun d => if descSends m d then 0 else d.count.toNat - dbn m).sum

/-- The N descriptor records of the array at `a`; `none` is `mem_fault`. -/
def readDescs (s : State) (a : Nat) : Nat → Option (List Descriptor)
  | 0 => some []
  | n + 1 =>
    match memRead s a 8, readDescs s (a + 8) n with
    | some bs, some ds => some (descriptorOf bs :: ds)
    | _, _ => none

/-- Check 4 of R243, for every class: of a CCC-broadcast descriptor, whose ADDR is otherwise ignored (R140, R245), bit 7 must
be 0 too (log entry 48). -/
def descFormOk (d : Descriptor) : Bool :=
  !d.addr.getLsbD 7 && d.rsvd == 0#8 && decide (d.dir.toNat ≤ 1) && decide (d.count.toNat ≤ 0xFFFF)

/-- Check 5 of R243: a private or legacy-I2C descriptor. -/
def descPrivateOk (m : ModeByte) (d : Descriptor) : Bool :=
  d.ccc == 0#8 && (if m.cls == .privateI3c then validDa (descAddr d) else descAddr d != broadcastAddr)

/-- The code is one that BUILD_CCC accepts in this class (spec/30_encoding.md R216). -/
def codeOk (m : ModeByte) (c : Byte) : Bool :=
  (decide (0x80 ≤ c.toNat) == (m.cls == .cccDirect)) && c != 0x07#8 &&
    !(decide (0x20 ≤ c.toNat) && decide (c.toNat ≤ 0x27))

/-- Check 6 of R243: a CCC descriptor. -/
def descCccOk (m : ModeByte) (d : Descriptor) : Bool :=
  codeOk m d.ccc && !(m.cls == .cccBroadcast && descReads d) &&
    (m.cls != .cccDirect ||
      (if d.ccc = 0x87#8 then descAddr d != broadcastAddr else validDa (descAddr d))) &&
    !(m.db && d.count == 0#32)

/-- Checks 4 to 6 of R243. -/
def descOk (m : ModeByte) (d : Descriptor) : Bool :=
  descFormOk d && (if m.cls.isCcc then descCccOk m d else descPrivateOk m d)

/-- The buffer bindings of a context (spec/20_memory.md R145). -/
structure Bindings where
  ctrlBuf : Word
  ctrlCap : Word
  txBuf : Word
  txCap : Word
  rxBuf : Word
  rxCap : Word
deriving DecidableEq, Repr

/-- The bindings of the first 24 bytes of a context. -/
def bindingsOf (bs : List Byte) : Bindings :=
  { ctrlBuf := fieldWord bs 0x00, ctrlCap := fieldWord bs 0x04, txBuf := fieldWord bs 0x08, txCap := fieldWord bs 0x0C,
    rxBuf := fieldWord bs 0x10, rxCap := fieldWord bs 0x14 }

/-- A buffer that `need` bytes require is bound and holds them (check 8 of R243). -/
def bufferOk (need : Nat) (buf cap : Word) : Bool := need == 0 || (buf != 0#32 && decide (need ≤ cap.toNat))

/-- Checks 7 and 8 of R243; the control buffer is also a multiple of 4 (spec/20_memory.md R139). -/
def bindingsOk (m : ModeByte) (ds : List Descriptor) (b : Bindings) : Bool :=
  b.ctrlBuf != 0#32 && aligned4 b.ctrlBuf && decide (wordsFor m.cls ds.length ≤ b.ctrlCap.toNat) &&
    bufferOk (txTotal m ds) b.txBuf b.txCap && bufferOk (rxTotal m ds) b.rxBuf b.rxCap

/-- Checks 1 to 3 of R243, which read no memory. -/
def argsOk (ccc : Bool) (sub : Byte) (ctx desc n : Word) : Bool :=
  aligned4 ctx && aligned4 desc && n != 0#32 && decide (wordsFor (msgClassOf sub) n.toNat ≤ 0xFFFF) &&
    modeLegal sub && (msgClassOf sub).isCcc == ccc

/-- The validation of a build (R243): the descriptors and the bindings, or `none` for INVALID_PARAM. -/
def validate (ccc : Bool) (sub : Byte) (s : State) : Option (List Descriptor × Bindings) :=
  if argsOk ccc sub s.arg.arg0 s.arg.arg1 s.arg.arg2 then
    match memRead s s.arg.arg0.toNat 24, readDescs s s.arg.arg1.toNat s.arg.arg2.toNat with
    | some bs, some ds =>
      if ds.all (descOk (modeByteOf sub)) && bindingsOk (modeByteOf sub) ds (bindingsOf bs) then
        some (ds, bindingsOf bs)
      else none
    | _, _ => none
  else none

/-! ## Control words (spec/40_builder.md R244–R246) -/

/-- The data byte count field of a word. -/
def dcntOf (n : Nat) : BitVec 16 := BitVec.ofNat 16 n

/-- MEND of a message word: always with TERM = 1, else on the last (spec/30_encoding.md R183). -/
def mendOf (m : ModeByte) (last : Bool) : Bool := m.term || last

/-- The words of one descriptor (R244, R245, R246). -/
def wordsOfDesc (m : ModeByte) (last : Bool) (d : Descriptor) : List Word :=
  match m.cls with
  | .privateI3c => [addrWord 2#4 (mendOf m last) m.arb (descAddr d) (descReads d) (dcntOf d.count.toNat)]
  | .legacyI2c => [addrWord 3#4 (mendOf m last) m.arb (descAddr d) (descReads d) (dcntOf d.count.toNat)]
  | .cccBroadcast => [cccWord (mendOf m last) false d.ccc (dcntOf d.count.toNat)]
  | .cccDirect =>
    [cccWord false false d.ccc (dcntOf (dbn m)),
      addrWord 4#4 (mendOf m last) false (descAddr d) (descReads d) (dcntOf (d.count.toNat - dbn m))]

/-- The words of a descriptor array, in descriptor order. -/
def wordsOf (m : ModeByte) : List Descriptor → List Word
  | [] => []
  | d :: r => wordsOfDesc m r.isEmpty d ++ wordsOf m r

/-- The writes of the words, one 4-byte access each, in rising order. -/
def wordWrites (a : Nat) : List Word → List (Nat × List Byte)
  | [] => []
  | w :: r => (a, bytes32 w) :: wordWrites (a + 4) r

/-- DIRMIX (spec/40_builder.md R247). -/
def dirmix (m : ModeByte) (ds : List Descriptor) : Byte :=
  (if ds.any (descSends m) then 1#8 else 0#8) ||| (if ds.any descReads then 2#8 else 0#8)

/-- `write_header(nw, N)` (spec/40_builder.md R247): BUILT is written last. A rebuild does not clear an old BUILT first, so
one that ends in a write fault leaves it: log entry 40. -/
def headerWrites (ctx : Nat) (sub : Byte) (ds : List Descriptor) : List (Nat × List Byte) :=
  let m := modeByteOf sub
  [(ctx + 0x18, bytes32 (BitVec.ofNat 32 (wordsFor m.cls ds.length))),
    (ctx + 0x1C, bytes32 (BitVec.ofNat 32 (txTotal m ds))),
    (ctx + 0x20, bytes32 (BitVec.ofNat 32 (rxTotal m ds))),
    (ctx + 0x24, [sub]),
    (ctx + 0x26, [dirmix m ds]),
    (ctx + 0x28, bytes32 (BitVec.ofNat 32 ds.length)),
    (ctx + 0x25, [1#8])]

/-- All writes of a build. -/
def buildWrites (ctx : Nat) (sub : Byte) (ds : List Descriptor) (b : Bindings) : List (Nat × List Byte) :=
  wordWrites b.ctrlBuf.toNat (wordsOf (modeByteOf sub) ds) ++ headerWrites ctx sub ds

/-- A build (spec/40_builder.md R243–R247). -/
def build (ccc : Bool) (sub : Byte) (s : State) : State :=
  match validate ccc sub s with
  | none => presult .invalidParam s
  | some (ds, b) => endWrites (memWrites s (buildWrites s.arg.arg0.toNat sub ds b))

/-- BUILD_PRIVATE (spec/40_builder.md R244). -/
def execBuildPrivate (_strat : Strat) (sub : Byte) (s : State) : Host.Outcome State Fault Refusal :=
  .next (build false sub s)

/-- BUILD_CCC (spec/40_builder.md R245, R246). -/
def execBuildCcc (_strat : Strat) (sub : Byte) (s : State) : Host.Outcome State Fault Refusal :=
  .next (build true sub s)

end Sys2Proof.Machine
end

