-- ==== Sys2Proof/Machine/Target.lean ====
section
/-! DEFINITION. The target response path (spec/44_target.md): the commands TGT_TX, TGT_RX, HJ_REQ, CR_REQ and IBI_REQ, the
ends of messages and frames, the engine's own steps in target role, role acquisition, and the target error entry
(spec/60_exceptions.md R575). -/

namespace Sys2Proof.Machine

/-! ## TGT_TX and TGT_RX (R420, R422) -/

/-- The length argument of TGT_TX and TGT_RX (R420, R422). -/
def tgtLenOk (s : State) : Bool := s.arg.arg1 != 0#32 && decide (s.arg.arg1.toNat ≤ 0xFFFF)

/-- The acceptance actions of TGT_TX (R420); each FIFO is flushed (spec/42_fifo.md R340; log entry 36). -/
def tgtTxAccept (st : Strat) (s : State) : State :=
  let s := accept opTgtTx st s.arg.arg2 s
  { s with
    ctl.life := .tx
    tgt.tgtlen := s.arg.arg1
    cnt.txptr := addrOf s s.arg.arg0
    cnt.txrem := s.arg.arg1
    fifo := Fifos.reset
    cnt.datacnt := 0
    tgt.tgtend := false
    work.rxBase := 0
    work.rxCap := 0 }

/-- TGT_TX (spec/44_target.md R420). -/
def execTgtTx (strat : Strat) (_sub : Byte) (s : State) : Host.Outcome State Fault Refusal :=
  .next (longCommand (gate .target .idle false [.poll, .irq, .dma] strat s) (tgtLenOk s) (tgtTxAccept strat) s)

/-- The acceptance actions of TGT_RX (R422); each FIFO is flushed (spec/42_fifo.md R340; log entry 36). -/
def tgtRxAccept (st : Strat) (s : State) : State :=
  let s := accept opTgtRx st s.arg.arg2 s
  { s with
    ctl.life := .rx
    tgt.tgtlen := s.arg.arg1
    cnt.rxptr := addrOf s s.arg.arg0
    cnt.rxrem := s.arg.arg1
    fifo := Fifos.reset
    cnt.datacnt := 0
    tgt.tgtend := false
    work.rxBase := addrOf s s.arg.arg0
    work.rxCap := s.arg.arg1 }

/-- TGT_RX (spec/44_target.md R422). -/
def execTgtRx (strat : Strat) (_sub : Byte) (s : State) : Host.Outcome State Fault Refusal :=
  .next (longCommand (gate .target .idle false [.poll, .irq, .dma] strat s) (tgtLenOk s) (tgtRxAccept strat) s)

/-! ## Messages (R421, R423, R428) -/

/-- The end of a private write (R428). -/
def endWrite (s : State) : State :=
  { s with cnt.rxrem := s.cnt.rxrem - (s.tgt.tgtlen - s.cnt.datacnt), tgt.tgtend := true }

/-- The end of a private read (R428). -/
def endRead (s : State) : State := { s with cnt.txrem := 0, fifo.txfifo := [], tgt.tgtend := true }

/-- Message end at an event (R428). -/
def endMessage (s : State) : State :=
  match s.tgt.phase with
  | .privW => endWrite s
  | .privR => endRead s
  | _ => s

/-- The end of TGT_TX or TGT_RX once its message has ended and every byte is drained (R428). -/
def closeStep (s : State) : State :=
  if (pending opTgtTx s || pending opTgtRx s) && s.tgt.tgtend && s.cnt.rxrem == 0#32 then
    let s := flag .tgtDone (setLife .idle { s with tgt.tgtend := false })
    finish .ok (bitField s.cnt.datacnt 0 16) s
  else s

/-- An error answer to a request of the target path (R421, R425, R430, R436, R437): `raise Error`; a protocol error, TE6, is
reported by the next GETSTATUS too (spec/10_state.md R67; log entry 13). -/
def raiseTarget (k : ErrCode) (s : State) : State :=
  raiseError k (if k = .te6 then { s with tst.perr := true } else s)

/-- A private read from this target (R421): the read that a pending TGT_TX serves. TPH can be T_PRIV_R with TGTEND = 0 after
that TGT_TX has finished (log entry 14); no byte is driven then (log entry 49). -/
def privReadStep (s : State) : State :=
  if pending opTgtTx s && !s.tgt.tgtend then
    match s.fifo.txfifo with
    | [] => s
    | b :: _ =>
      let last := s.cnt.datacnt + 1 == readLimit s
      phy (.tbyte b last)
        (fun r s =>
          match r with
          | .ok =>
            let s := countByte (popTx s)
            if last then endRead { s with tgt.phase := .ignore } else s
          | .stopped => endRead s
          | .err k => raiseTarget k s
          | _ => s)
        s
  else s

/-- A byte of a private write into this target (R423); with a full RXFIFO the event waits. At the DOVR the bytes that the
MOVER has not drained yet are dropped, as R570 flushes RXFIFO: log entry 43. -/
def privWriteByte (b : Byte) (s : State) : State :=
  if s.cnt.datacnt = writeLimit s then raiseError .dovr s
  else countByte { s with fifo.rxfifo := s.fifo.rxfifo ++ [b] }

/-- A byte of a private write that must wait for the MOVER (R423). -/
def privWriteHolds (s : State) : Bool :=
  s.tgt.phase == .privW && s.cnt.datacnt != writeLimit s && rxfifoFull s

/-! ## Requests (R425, R430, R436) -/

/-- The end of a target request: STATE <- IDLE, flag(TREQ_DONE), finish (R425, R430, R436). -/
def requestDone (c : Code) (aux : BitVec 16) (s : State) : State := finish c aux (flag .treqDone (setLife .idle s))

/-- The acceptance actions of HJ_REQ (R425). -/
def hjAccept (st : Strat) (s : State) : State :=
  { accept opHjReq st s.arg.arg2 s with ctl.life := .tgtreq, tgt.trq := .none }

/-- HJ_REQ (spec/44_target.md R425). -/
def execHjReq (strat : Strat) (_sub : Byte) (s : State) : Host.Outcome State Fault Refusal :=
  .next (longCommand (gate .target .idle false [.poll, .irq] strat s) (!s.cfg.dav) (hjAccept strat) s)

/-- CR_REQ (spec/44_target.md R430). -/
def execCrReq (strat : Strat) (_sub : Byte) (s : State) : Host.Outcome State Fault Refusal :=
  .next
    (longCommand (gate .target .idle false [.poll, .irq] strat s) (s.cfg.dav && controllerCapable s)
      (fun s => setLife .tgtreq (accept opCrReq strat s.arg.arg2 s)) s)

/-- The argument checks of IBI_REQ (R436). -/
def ibiArgsOk (s : State) : Bool :=
  s.cfg.dav && decide (s.arg.arg1.toNat ≤ 0xFF) && (s.arg.arg1 == 0#32 || s.cfg.bcr.getLsbD 2) && s.cfg.bcr.getLsbD 1

/-- The acceptance actions of IBI_REQ (R436); each FIFO is flushed (spec/42_fifo.md R340; log entry 36). -/
def ibiAccept (st : Strat) (s : State) : State :=
  let s := accept opIbiReq st s.arg.arg2 s
  { s with
    ctl.life := .tgtreq
    cnt.txptr := addrOf s s.arg.arg0
    cnt.txrem := s.arg.arg1
    tgt.tgtlen := s.arg.arg1
    fifo := Fifos.reset
    cnt.datacnt := 0 }

/-- IBI_REQ (spec/44_target.md R436). -/
def execIbiReq (strat : Strat) (_sub : Byte) (s : State) : Host.Outcome State Fault Refusal :=
  .next (longCommand (gate .target .idle false [.poll, .irq] strat s) (ibiArgsOk s) (ibiAccept strat) s)

/-- TREQ and its answers, for a request that is not refused by its grant (R425, R430, R436): `nackCode` is the result of a
NACK, `acked` what an acknowledgement does; a lost arbitration is retried. -/
def treqStep (a : Addr7) (rnw granted : Bool) (nackCode : Code) (acked : State → State) (s : State) : State :=
  if granted then
    phy (.treq a rnw)
      (fun r s =>
        match r with
        | .ack => acked s
        | .nack => requestDone nackCode 0 s
        | .err k => raiseTarget k s
        | _ => s)
      s
  else requestDone .refused 0 s

/-- The end of an IBI that was acknowledged (R437). -/
def ibiEnd (s : State) : State :=
  let s := notify .nIbiEnd (setLife .idle { s with tgt.trq := .none, cnt.txrem := 0, fifo.txfifo := [] })
  finish .ok (bitField s.cnt.datacnt 0 16) (flag .treqDone s)

/-- One payload byte of the own IBI (R437). -/
def ibiDataStep (s : State) : State :=
  match s.fifo.txfifo with
  | [] => s
  | b :: _ =>
    phy (.tbyte b (s.cnt.datacnt + 1 == s.tgt.tgtlen))
      (fun r s =>
        match r with
        | .ok =>
          let s := countByte (popTx s)
          if s.cnt.datacnt = s.tgt.tgtlen then ibiEnd s else s
        | .stopped => ibiEnd s
        | .err k => raiseTarget k s
        | _ => s)
      s

/-- The IBI was acknowledged: its payload follows, or it is over (R436, R437). -/
def ibiAcked (s : State) : State :=
  if s.tgt.tgtlen = 0 then ibiEnd s else { s with tgt.trq := .ibiData }

/-- The ENGINE step of the pending target request (R425, R430, R436, R437). -/
def targetRequestStep (s : State) : State :=
  match s.tgt.trq with
  | .ibiData => if pending opIbiReq s then ibiDataStep s else s
  | .hjWaitDaa => s
  | .crWaitGetacccr => s
  | .none =>
    if s.tgt.phase ≠ .idle then s
    else if pending opHjReq s then
      treqStep hotJoinAddr false s.tst.enhj .refused (fun s => { s with tgt.trq := .hjWaitDaa }) s
    else if pending opCrReq s then
      treqStep s.cfg.da false s.tst.encr .refused (fun s => { s with tgt.trq := .crWaitGetacccr }) s
    else if pending opIbiReq s then treqStep s.cfg.da true s.tst.enint .nacked ibiAcked s
    else s

/-- A hot-join that waits for its address has got one (R426). -/
def hotJoinAssigned (s : State) : State :=
  if s.tgt.trq = .hjWaitDaa then requestDone .ok (s.cfg.da.setWidth 16) { s with tgt.trq := .none } else s

/-- A hot-join that waits for its address is disabled by DISEC (R426). -/
def hotJoinDisabled (s : State) : State :=
  if s.tgt.trq = .hjWaitDaa ∧ s.tst.enhj = false then requestDone .refused 0 { s with tgt.trq := .none } else s

/-! ## Frames -/

/-- Controller-role acquisition (R432); every other pending target command ends ABORTED (log entry 18), a target request
with TREQ_DONE (log entry 44). -/
def acquireRole (s : State) : State :=
  let s := { s with ctl.mode := .controller, tgt.handoff := false, tgt.phase := .idle, tgt.trq := .none }
  let s := relisten (notify .nGetacccr s)
  if pending opCrReq s then requestDone .ok 0 s
  else if s.ctl.cmdp then finish .aborted (bitField s.cnt.datacnt 0 16) (setLife .idle (flagRequest s))
  else s

/-- What START, a repeated START and STOP do to the target path, the ends of messages and of CCC data apart (R424). -/
def frameEvent (e : PhyEvent) (s : State) : State :=
  match e with
  | .start => { s with tgt.phase := .addr, tgt.ccccur := 0 }
  | .rstart => { s with tgt.phase := .addr }
  | .stop =>
    let s := { s with tgt.phase := .idle, tgt.ccccur := 0, tgt.ignstop := false }
    if s.tgt.handoff then acquireRole s else s
  | _ => s

/-- The target ignores the bus until the next Sr or STOP, or only until STOP. -/
def ignore (untilStop : Bool) (s : State) : State :=
  { s with tgt.phase := .ignore, tgt.ignstop := untilStop }

/-- TPH <- T_IGNORE, IGNSTOP unchanged. -/
def toIgnore (s : State) : State := { s with tgt.phase := .ignore }

/-- The answer to an address: ACK, and the next phase. -/
def ackAddr (p : TgtPhase) (s : State) : State := { drive (.answer true) s with tgt.phase := p }

/-- The answer to an address: NACK, and T_IGNORE. -/
def nackAddr (s : State) : State := toIgnore (drive (.answer false) s)

/-! ## Target error entry (spec/60_exceptions.md R575) -/

/-- The event belongs to a pending target command (R575). -/
def belongs (s : State) : Bool :=
  (pending opTgtRx s && s.tgt.phase == .privW) || (pending opTgtTx s && s.tgt.phase == .privR) ||
    (pending opIbiReq s && s.tgt.trq == .ibiData) ||
    (pending opHjReq s && s.tgt.trq == .hjWaitDaa && s.tgt.phase == .daa) ||
    (pending opCrReq s && s.tgt.trq != .none)

/-- Target error entry (R575). -/
def targetError (k : ErrCode) (s : State) : State :=
  let s := { s with tst.perr := true }
  if belongs s then raiseError k s else ignore false (latchFlag k s)

end Sys2Proof.Machine
end

