-- ==== Sys2Proof/Machine/Ccc.lean ====
section
/-! DEFINITION. The target-side CCC decoder (spec/45_ccc_decoder.md). The meaning of a CCC is the decoder's step for it: which
one, the phase TPH and the PHY event or answer of the step say. The four shapes (broadcast with data, direct write,
direct read, list) are shared; each CCC gives its effect, its readiness and its response. -/

namespace Sys2Proof.Machine

/-- The meaning is a step that always has a next state. -/
abbrev Meaning := State → Host.Outcome State Fault Refusal

/-! ## Reception (R460–R463) -/

/-- The code is received (R460). -/
def receiveCode (code : Byte) (p : TgtPhase) (s : State) : State :=
  { s with tgt.ccccur := code, tgt.cccbuf := [], tgt.defv := false, tgt.phase := p }

/-- The defining byte of a direct CCC (R463). -/
def definingByte (b : Byte) (s : State) : State :=
  if s.tgt.defv then toIgnore (detect .te5 s) else { s with tgt.defbyte := b, tgt.defv := true }

/-- A CCC data byte (R461). -/
def collect (b : Byte) (s : State) : State :=
  if 8 ≤ cccn s then toIgnore (detect .te5 s) else { s with tgt.cccbuf := s.tgt.cccbuf ++ [b] }

/-- The end of the CCC's data: the effect with the collected bytes, then the frame event (R461, R424). -/
def endData (broadcast : Bool) (effect : State → State) (e : PhyEvent) (s : State) : State :=
  let s := effect s
  frameEvent e (if broadcast then { s with tgt.ccccur := 0 } else s)

/-- A direct CCC is addressed to this target (R462), with the direction it takes and its readiness. -/
def addressed (dirOk ready : Bool) (accepted : State → State) (s : State) : State :=
  if !dirOk then nackAddr (detect .te5 s) else if !ready then nackAddr s else accepted s

/-- The address of a direct write is acknowledged (R462). -/
def writeAccepted (s : State) : State := ackAddr .directW { s with tgt.cccbuf := [] }

/-- The address of a direct read is acknowledged: the response is built (R462). -/
def readAccepted (response : State → List Byte) (s : State) : State :=
  ackAddr .directR { s with tgt.cccbuf := response s, tgt.rspk := 0 }

/-- One response byte (R479); `sent` is `on_sent`. -/
def sendResponse (sent : State → State) (s : State) : State :=
  let last := s.tgt.rspk.toNat + 1 == cccn s
  phy (.tbyte (s.tgt.cccbuf.getD s.tgt.rspk.toNat 0) last)
    (fun r s =>
      match r with
      | .ok =>
        let s := { s with tgt.rspk := s.tgt.rspk + 1 }
        if last then sent (ignore false s) else s
      | .stopped => ignore false s
      | .err k => targetError k s
      | _ => s)
    s

/-! ## The shapes -/

/-- A broadcast CCC with collected data. -/
def broadcastCcc (code : Byte) (effect : State → State) (s : State) : State :=
  match s.env.cue, s.tgt.phase with
  | .event (.byte _), .ccc => receiveCode code .cccData s
  | .event (.byte b), .cccData => collect b s
  | .event .start, .cccData => endData true effect .start s
  | .event .rstart, .cccData => endData true effect .rstart s
  | .event .stop, .cccData => endData true effect .stop s
  | _, _ => s

/-- A direct CCC that writes. -/
def directWrite (code : Byte) (ready : State → Bool) (effect : State → State) (s : State) : State :=
  match s.env.cue, s.tgt.phase with
  | .event (.byte _), .ccc => receiveCode code .direct s
  | .event (.byte b), .direct => definingByte b s
  | .event (.addr _ rnw), .addr => addressed (!rnw) (ready s) writeAccepted s
  | .event (.byte b), .directW => collect b s
  | .event .start, .directW => endData false effect .start s
  | .event .rstart, .directW => endData false effect .rstart s
  | .event .stop, .directW => endData false effect .stop s
  | _, _ => s

/-- A direct CCC that reads. -/
def directRead (code : Byte) (ready : State → Bool) (response : State → List Byte) (sent : State → State)
    (s : State) : State :=
  match s.env.cue, s.tgt.phase with
  | .event (.byte _), .ccc => receiveCode code .direct s
  | .event (.byte b), .direct => definingByte b s
  | .event (.addr _ rnw), .addr => addressed rnw (ready s) (readAccepted response) s
  | .answer _, .directR => sendResponse sent s
  | _, _ => s

/-- Ready in every state (R462). -/
def always (_ : State) : Bool := true

/-! ## Effects -/

/-- The effect of a CCC with exactly `n` data bytes, else TE5 and nothing else (R461). -/
def withBytes (n : Nat) (k : List Byte → State → State) (s : State) : State :=
  if cccn s = n then k s.tgt.cccbuf s else detect .te5 s

/-- ENEC (R464, R488). -/
def enecEffect (s : State) : State :=
  withBytes 1
    (fun bs s =>
      let e := fieldByte bs 0
      notify .nEvent
        { s with
          tst.enint := s.tst.enint || e.getLsbD 0
          tst.encr := s.tst.encr || e.getLsbD 1
          tst.enhj := s.tst.enhj || e.getLsbD 3 })
    s

/-- DISEC (R465, R488, spec/44_target.md R426). -/
def disecEffect (s : State) : State :=
  withBytes 1
    (fun bs s =>
      let e := fieldByte bs 0
      hotJoinDisabled
        (notify .nEvent
          { s with
            tst.enint := s.tst.enint && !e.getLsbD 0
            tst.encr := s.tst.encr && !e.getLsbD 1
            tst.enhj := s.tst.enhj && !e.getLsbD 3 }))
    s

/-- ENTAS0..ENTAS3 (R466). -/
def entasEffect (n : BitVec 2) (s : State) : State :=
  withBytes 0 (fun _ s => notify .nActState { s with tst.act := n }) s

/-- RSTDAA (R467). -/
def rstdaaEffect (s : State) : State :=
  withBytes 0 (fun _ s => notify .nDaUpd { s with cfg.da := 0, cfg.dav := false }) s

/-- The new address that SETDASA and SETNEWDA carry, bits 7:1 (R469, R472). -/
def newDa (b : Byte) : Addr7 := bitField b 1 7

/-- SETDASA (R469); a hot-join that waits for an address has one then (spec/44_target.md R426). -/
def setdasaEffect (s : State) : State :=
  withBytes 1
    (fun bs s =>
      let na := newDa (fieldByte bs 0)
      if validDa na then hotJoinAssigned (notify .nDaUpd { s with cfg.da := na, cfg.dav := true })
      else latchFlag .dynaddr s)
    s

/-- SETNEWDA (R472). With DAV = 0 (addressed by the static address) DA is written and DAV stays 0: log entry 45. -/
def setnewdaEffect (s : State) : State :=
  withBytes 1
    (fun bs s =>
      let na := newDa (fieldByte bs 0)
      if validDa na then notify .nDaUpd { s with cfg.da := na } else latchFlag .dynaddr s)
    s

/-- SETMWL (R470). -/
def setmwlEffect (s : State) : State :=
  withBytes 2
    (fun bs s => notify .nMaxLen { s with cfg.mwl := ofBe16 (fieldByte bs 0) (fieldByte bs 1) }) s

/-- SETMRL (R471): two or three bytes. -/
def setmrlEffect (s : State) : State :=
  if cccn s = 2 ∨ cccn s = 3 then
    notify .nMaxLen { s with cfg.mrl := ofBe16 (fieldByte s.tgt.cccbuf 0) (fieldByte s.tgt.cccbuf 1) }
  else detect .te5 s

/-- The reset action is stored (R473). -/
def storeRstact (d : Byte) (s : State) : State := notify .nRstAct { s with tst.rstact := d }

/-- RSTACT, broadcast: one data byte, the defining byte (R473). -/
def rstactEffect (s : State) : State := withBytes 1 (fun bs s => storeRstact (fieldByte bs 0) s) s

/-- RSTACT, direct write: the defining byte has been kept, and there is no data (R473). -/
def rstactDirectEffect (s : State) : State :=
  withBytes 0 (fun _ s => if s.tgt.defv then storeRstact s.tgt.defbyte s else detect .te5 s) s

/-- `on_sent` of a GET code (R479). -/
def getSent (s : State) : State := notify .nGet s

/-- `on_sent` of GETSTATUS (R479). -/
def getstatusSent (s : State) : State := { notify .nGetStatus (getSent s) with tst.perr := false }

/-- GETACCCR is ready (R486). -/
def acccrReady (s : State) : Bool := controllerCapable s && s.cfg.dav

/-- `on_sent` of GETACCCR (R479, R486). -/
def acccrSent (s : State) : State := { getSent s with tgt.handoff := true }

/-! ## Lists (R478) -/

/-- The code of a list CCC (R460, R478). -/
def listCode (code : Byte) (s : State) : State :=
  notify .nDefList { receiveCode code .cccData s with work.listOvr := false }

/-- A data byte of a list CCC (R478); DOVR is latched once per CCC (log entry 24); the write is answered `mem_fault` or
performed, never `dma_err` (log entry 38). -/
def listByte (b : Byte) (s : State) : State :=
  if !notifies .nDefList s then s
  else if s.snap.nbuflen = 0 then
    if s.work.listOvr then s else latchFlag .dovr { s with work.listOvr := true }
  else
    match memWrite s s.snap.nbufptr [b] with
    | none => latchFlag .dma s
    | some t => { t with snap.nbufptr := byteAt s s.snap.nbufptr 1, snap.nbuflen := s.snap.nbuflen - 1 }

/-- A list CCC (R478). -/
def listCcc (code : Byte) (s : State) : State :=
  match s.env.cue, s.tgt.phase with
  | .event (.byte _), .ccc => listCode code s
  | .event (.byte b), .cccData => listByte b s
  | .event .start, .cccData => endData true id .start s
  | .event .rstart, .cccData => endData true id .rstart s
  | .event .stop, .cccData => endData true id .stop s
  | _, _ => s

/-! ## The broadcast CCCs -/

/-- ENEC, broadcast (spec/45_ccc_decoder.md R464). -/
def execEnecB : Meaning := fun s => .next (broadcastCcc 0x00#8 enecEffect s)

/-- DISEC, broadcast (spec/45_ccc_decoder.md R465). -/
def execDisecB : Meaning := fun s => .next (broadcastCcc 0x01#8 disecEffect s)

/-- ENTAS0, broadcast (spec/45_ccc_decoder.md R466). -/
def execEntas0B : Meaning := fun s => .next (broadcastCcc 0x02#8 (entasEffect 0#2) s)

/-- ENTAS1, broadcast (spec/45_ccc_decoder.md R466). -/
def execEntas1B : Meaning := fun s => .next (broadcastCcc 0x03#8 (entasEffect 1#2) s)

/-- ENTAS2, broadcast (spec/45_ccc_decoder.md R466). -/
def execEntas2B : Meaning := fun s => .next (broadcastCcc 0x04#8 (entasEffect 2#2) s)

/-- ENTAS3, broadcast (spec/45_ccc_decoder.md R466). -/
def execEntas3B : Meaning := fun s => .next (broadcastCcc 0x05#8 (entasEffect 3#2) s)

/-- RSTDAA, broadcast (spec/45_ccc_decoder.md R467). -/
def execRstdaaB : Meaning := fun s => .next (broadcastCcc 0x06#8 rstdaaEffect s)

/-- The code of ENTDAA (R468). -/
def entdaaCode (s : State) : State :=
  if s.cfg.dav then ignore true (receiveCode 0x07#8 .ignore s) else receiveCode 0x07#8 .daa s

/-- The address this target is assigned in ENTDAA (R468). -/
def entdaaAddress (a : Addr7) (s : State) : State :=
  if validDa a then
    ignore true (hotJoinAssigned (notify .nDaUpd { s with cfg.da := a, cfg.dav := true }))
  else latchFlag .dynaddr s

/-- ENTDAA (spec/45_ccc_decoder.md R468). -/
def execEntdaa : Meaning := fun s =>
  .next
    (match s.env.cue, s.tgt.phase with
    | .event (.byte _), .ccc => entdaaCode s
    | .event .daaSr, .daa => drive (.offer (ownPayload s)) s
    | .event (.da a), .daa => entdaaAddress a s
    | _, _ => s)

/-- DEFTGTS (spec/45_ccc_decoder.md R478). -/
def execDeftgts : Meaning := fun s => .next (listCcc 0x08#8 s)

/-- SETMWL, broadcast (spec/45_ccc_decoder.md R470). -/
def execSetmwlB : Meaning := fun s => .next (broadcastCcc 0x09#8 setmwlEffect s)

/-- SETMRL, broadcast (spec/45_ccc_decoder.md R471). -/
def execSetmrlB : Meaning := fun s => .next (broadcastCcc 0x0A#8 setmrlEffect s)

/-- RSTACT, broadcast (spec/45_ccc_decoder.md R473). -/
def execRstactB : Meaning := fun s => .next (broadcastCcc 0x2A#8 rstactEffect s)

/-- DEFGRPA (spec/45_ccc_decoder.md R478). -/
def execDefgrpa : Meaning := fun s => .next (listCcc 0x2B#8 s)

/-! ## The direct CCCs that write -/

/-- ENEC, direct (spec/45_ccc_decoder.md R464). -/
def execEnecD : Meaning := fun s => .next (directWrite 0x80#8 always enecEffect s)

/-- DISEC, direct (spec/45_ccc_decoder.md R465). -/
def execDisecD : Meaning := fun s => .next (directWrite 0x81#8 always disecEffect s)

/-- ENTAS0, direct (spec/45_ccc_decoder.md R466). -/
def execEntas0D : Meaning := fun s => .next (directWrite 0x82#8 always (entasEffect 0#2) s)

/-- ENTAS1, direct (spec/45_ccc_decoder.md R466). -/
def execEntas1D : Meaning := fun s => .next (directWrite 0x83#8 always (entasEffect 1#2) s)

/-- ENTAS2, direct (spec/45_ccc_decoder.md R466). -/
def execEntas2D : Meaning := fun s => .next (directWrite 0x84#8 always (entasEffect 2#2) s)

/-- ENTAS3, direct (spec/45_ccc_decoder.md R466). -/
def execEntas3D : Meaning := fun s => .next (directWrite 0x85#8 always (entasEffect 3#2) s)

/-- RSTDAA, direct (spec/45_ccc_decoder.md R467). -/
def execRstdaaD : Meaning := fun s => .next (directWrite 0x86#8 always rstdaaEffect s)

/-- SETDASA (spec/45_ccc_decoder.md R469): ready while the target has no dynamic address (R462). -/
def execSetdasaCcc : Meaning := fun s => .next (directWrite 0x87#8 (fun s => !s.cfg.dav) setdasaEffect s)

/-- SETNEWDA (spec/45_ccc_decoder.md R472). -/
def execSetnewda : Meaning := fun s => .next (directWrite 0x88#8 always setnewdaEffect s)

/-- SETMWL, direct (spec/45_ccc_decoder.md R470). -/
def execSetmwlD : Meaning := fun s => .next (directWrite 0x89#8 always setmwlEffect s)

/-- SETMRL, direct (spec/45_ccc_decoder.md R471). -/
def execSetmrlD : Meaning := fun s => .next (directWrite 0x8A#8 always setmrlEffect s)

/-! ## The direct CCCs that read -/

/-- GETMWL (spec/45_ccc_decoder.md R480). -/
def execGetmwl : Meaning := fun s => .next (directRead 0x8B#8 always respMwl getSent s)

/-- GETMRL (spec/45_ccc_decoder.md R481). -/
def execGetmrl : Meaning := fun s => .next (directRead 0x8C#8 always respMrl getSent s)

/-- GETPID (spec/45_ccc_decoder.md R482). -/
def execGetpid : Meaning := fun s => .next (directRead 0x8D#8 always respPid getSent s)

/-- GETBCR (spec/45_ccc_decoder.md R483). -/
def execGetbcr : Meaning := fun s => .next (directRead 0x8E#8 always respBcr getSent s)

/-- GETDCR (spec/45_ccc_decoder.md R484). -/
def execGetdcr : Meaning := fun s => .next (directRead 0x8F#8 always respDcr getSent s)

/-- GETSTATUS (spec/45_ccc_decoder.md R485). -/
def execGetstatus : Meaning := fun s => .next (directRead 0x90#8 always respStatus getstatusSent s)

/-- GETACCCR (spec/45_ccc_decoder.md R486). -/
def execGetacccr : Meaning := fun s => .next (directRead 0x91#8 acccrReady respAcccr acccrSent s)

/-- RSTACT, direct: both directions (spec/45_ccc_decoder.md R473, R462). -/
def execRstactD : Meaning := fun s =>
  .next
    (match s.env.cue, s.tgt.phase with
    | .event (.byte _), .ccc => receiveCode 0x9A#8 .direct s
    | .event (.byte b), .direct => definingByte b s
    | .event (.addr _ true), .addr => readAccepted respRstact s
    | .event (.addr _ false), .addr => writeAccepted s
    | .event (.byte b), .directW => collect b s
    | .event .start, .directW => endData false rstactDirectEffect .start s
    | .event .rstart, .directW => endData false rstactDirectEffect .rstart s
    | .event .stop, .directW => endData false rstactDirectEffect .stop s
    | .answer _, .directR => sendResponse (notify .nRstAct) s
    | _, _ => s)

/-! ## HDR entry -/

/-- ENTHDR0–7 (spec/45_ccc_decoder.md R476). -/
def execEnthdr (hdr : BitVec 3) (s : State) : Host.Outcome State Fault Refusal :=
  .next
    (match s.env.cue, s.tgt.phase with
    | .event (.byte _), .ccc => ignore true (receiveCode (0x20#8 ||| hdr.setWidth 8) .ignore s)
    | _, _ => s)

/-! ## Codes that are no instruction (R475, R477) -/

/-- An unsupported defined code (R460, R475): a broadcast one is ignored, a direct one waits for its addresses. -/
def unsupportedCode (c : Byte) (s : State) : State :=
  if 0x80 ≤ c.toNat then receiveCode c .direct s else ignore false (receiveCode c .ignore s)

/-- An undefined code (R477): TE1, PERR, flag(ERR). The rest of the frame is ignored up to STOP, and each of its addresses is
NACKed, after a direct one too (spec/93_implementation_defined.md U13; log entry 46). -/
def undefinedCode (c : Byte) (s : State) : State :=
  let p := if 0x80 ≤ c.toNat then TgtPhase.direct else .ignore
  { receiveCode c p (detect .te1 s) with tgt.ignstop := true }

end Sys2Proof.Machine
end

