-- ==== Sys2Proof/Machine/Request.lean ====
section
/-! DEFINITION. Controller-side reception of target requests (spec/46_events.md R520–R527): hot-join, in-band interrupt,
controller-role request. -/

namespace Sys2Proof.Machine

/-- A target request starts to be handled: the answer `arb` to a START, or the event `ev_treq` (R520). FRAME is 1 while it
is handled (log entry 10). The interrupted operation keeps its place. -/
def beginRequest (a : Addr7) (rnw : Bool) (s : State) : State :=
  { s with seq.frame := true, work.request := .ack a rnw }

/-- STOP is the next PHY request of the handling. -/
def requestStop (n : RequestNote) (s : State) : State := { s with work.request := .stop n }

/-- An error during the handling (R521, R567): with no command pending it is latched and flagged, RECOV is set by CE1, and
the handling still ends with STOP (log entry 12). -/
def requestError (k : ErrCode) (s : State) : State :=
  if s.ctl.cmdp then raiseError k s else requestStop .none (latchFlag k (needRecovery k s))

/-- IBIREC <- {ADDR, RNW, CNT 0, KIND} (R522, R526, R527). -/
def recordRequest (a : Addr7) (rnw : Bool) (kind : BitVec 2) (s : State) : State :=
  { s with ibi.addr := a, ibi.rnw := rnw, ibi.cnt := 0, ibi.kind := kind }

/-- The hot-join request (R527). -/
def hotJoinAck (s : State) : State :=
  if s.cfg.hjack then
    phy (.reqAck true) (fun _ s => requestStop .hj (recordRequest hotJoinAddr false 2#2 s)) s
  else phy (.reqAck false) (fun _ s => requestStop .none s) s

/-- What follows the acknowledged IBI: its payload, or the STOP (R522). -/
def ibiAfterAck (i : Fin 4) (s : State) : State :=
  if s.cfg.bdt[i].ibiden && decide (0 < s.env.params.ibiMax) then { s with work.request := .data i 0 }
  else requestStop (.ibi i) s

/-- The in-band interrupt (R522). -/
def ibiAck (a : Addr7) (s : State) : State :=
  match (bdtFind s a).filter fun i => s.cfg.bdt[i].ibiack with
  | none => phy (.reqAck false) (fun _ s => requestStop .none s) s
  | some i => phy (.reqAck true) (fun _ s => ibiAfterAck i { recordRequest a true 0#2 s with ibi.data := 0 }) s

/-- The controller-role request (R526). -/
def roleAck (a : Addr7) (s : State) : State :=
  match (bdtFind s a).filter fun i => s.cfg.bdt[i].crack with
  | none => phy (.reqAck false) (fun _ s => requestStop .none s) s
  | some _ => phy (.reqAck true) (fun _ s => requestStop .crreq (recordRequest a false 1#2 s)) s

/-- The dispatch of a target request (R521). -/
def requestAck (a : Addr7) (rnw : Bool) (s : State) : State :=
  if a = hotJoinAddr ∧ rnw = false then hotJoinAck s else if rnw then ibiAck a s else roleAck a s

/-- IBIDATA.byte[k] <- b; IBIREC.CNT <- k + 1 (R522). -/
def storeIbiByte (k : Nat) (b : Byte) (s : State) : State :=
  { s with ibi.data := s.ibi.data ||| place b (8 * k), ibi.cnt := BitVec.ofNat 8 (k + 1) }

/-- One payload byte of an acknowledged IBI (R522). -/
def ibiByte (i : Fin 4) (k : Nat) (s : State) : State :=
  phy (.rbyte false (decide (k + 1 = s.env.params.ibiMax)))
    (fun r s =>
      match r with
      | .byte b more =>
        let s := storeIbiByte k b s
        if more = false ∨ k + 1 = s.env.params.ibiMax then requestStop (.ibi i) s
        else { s with work.request := .data i (k + 1) }
      | .err j => requestError j s
      | _ => s)
    s

/-- SUSPENDED is set by an IBI from an entry with SUSP = 1 while a START is pending (R522, R524). -/
def suspendFor (i : Fin 4) (s : State) : State :=
  if s.cfg.bdt[i].susp && pending opStart s then { s with ctl.suspended := true } else s

/-- What is notified once the frame of the request has ended (R522, R526, R527). -/
def requestEnd (n : RequestNote) (s : State) : State :=
  match n with
  | .none => s
  | .ibi i => notify .ibi (suspendFor i s)
  | .crreq => notify .crreq s
  | .hj => notify .hj s

/-- One ENGINE step of the handling (R521). -/
def requestStep (s : State) : State :=
  match s.work.request with
  | .idle => s
  | .ack a rnw => requestAck a rnw s
  | .data i k => ibiByte i k s
  | .stop n =>
    phy .stop (fun _ s => requestEnd n { s with seq.frame := false, work.request := .idle }) s

end Sys2Proof.Machine
end

