-- ==== Sys2Proof/Machine/Sequencer.lean ====
section
/-! DEFINITION. The controller commands START, SETDASA, PROBE and BUS_RECOVER, and the sequencer's meaning of the four
control words (spec/41_controller.md R282–R291, R294–R296, R302, R303; spec/46_events.md R530). The meaning of a word is the
step that the phase SEQ calls for: fetch and check, start and address, data, end. -/

namespace Sys2Proof.Machine

/-! ## START (R282) -/

/-- The busy state of a direction mix (R282). -/
def lifeOfDirmix (d : Byte) : Life := if d = 1#8 then .tx else if d = 2#8 then .rx else .txrx

/-- The context of a START, if its argument checks pass (R282): 48 bytes of a built context with words, with an aligned
control buffer (spec/20_memory.md R139). -/
def startContext (s : State) : Option (List Byte) :=
  if aligned4 s.arg.arg0 then
    (memRead s s.arg.arg0.toNat 48).filter fun c =>
      fieldByte c 0x25 == 1#8 && fieldWord c 0x18 != 0#32 && aligned4 (fieldWord c 0x00)
  else none

/-- The acceptance actions of START (R282), over the bytes of the context. A target request in handling goes on to its STOP
(log entry 39). RX_BUF and RX_CAP are kept as the bound rx buffer (log entry 3); with RX_BUF = 0 none is bound
(spec/20_memory.md R145), and its size is 0. -/
def startAccept (st : Strat) (c : List Byte) (s : State) : State :=
  let s := drainAll (accept opStart st s.arg.arg1 s)
  { s with
    cnt.ctxaddr := addrOf s s.arg.arg0
    cnt.ctrlptr := addrOf s (fieldWord c 0x00)
    cnt.ctrlrem := bitField (fieldWord c 0x18) 0 16
    cnt.txptr := addrOf s (fieldWord c 0x08)
    cnt.txrem := fieldWord c 0x1C
    cnt.rxptr := addrOf s (fieldWord c 0x10)
    cnt.rxrem := fieldWord c 0x20
    cnt.datacnt := 0
    cnt.msgcnt := 0
    seq.frame := false
    seq.ccchdr := false
    seq.ccclast := 0
    seq.handover := false
    ctl.suspended := false
    ctl.life := lifeOfDirmix (fieldByte c 0x26)
    seq.phase := .fetch
    work.rxBase := addrOf s (fieldWord c 0x10)
    work.rxCap := if fieldWord c 0x10 = 0#32 then 0 else fieldWord c 0x14 }

/-- START (spec/41_controller.md R282). -/
def execStart (strat : Strat) (_sub : Byte) (s : State) : Host.Outcome State Fault Refusal :=
  .next
    (match gate .controller .idle true [.poll, .irq, .dma] strat s with
    | some c => reject c s
    | none =>
      match startContext s with
      | none => reject .invalidParam s
      | some c => startAccept strat c s)

/-! ## The phases of a control word -/

/-- The next PHY request is `m`, in the same phase. -/
def goto (m : Micro) (s : State) : State := { s with work.micro := m }

/-- The next PHY request is `m`, in phase `p`. -/
def enter (p : SeqPhase) (m : Micro) (s : State) : State := { s with seq.phase := p, work.micro := m }

/-- S_FETCH (R285, R291): the head of CFIFO becomes CUR, an illegal word raises COVR. -/
def fetchWord (w : Word) (legal : Bool) (s : State) : State :=
  if s.ctl.suspended then s
  else
    let s := { s with
      fifo.cfifo := s.fifo.cfifo.tail
      seq.cur := w
      seq.curdone := 0
      seq.early := false
      seq.nackb := false }
    if legal then enter .addr .start s else raiseError .covr s

/-- Message start of CUR, common to PRIV, I2C and CCC (R286); `next` is the request after a START or a repeated START. -/
def messageStart (next : Bool → Micro) (s : State) : State :=
  if s.seq.frame then phy .rstart (fun _ s => goto (next false) { s with seq.bws := false }) s
  else
    phy .start
      (fun r s =>
        match r with
        | .arb a rnw => beginRequest a rnw s
        | _ => goto (next true) { s with seq.frame := true, seq.bws := true })
      s

/-- The header ADDR(0x7E, 0) (R287, R302, R303): a NACK is CE2. -/
def sendHeader (k : State → State) (s : State) : State :=
  phy (.addr broadcastAddr false)
    (fun r s =>
      match r with
      | .ack => k s
      | .nack => raiseError .ce2 s
      | .err j => raiseError j s
      | _ => s)
    s

/-- The address of CUR (R289, R302, R303): a NACK is ANACK. -/
def sendAddress (a : Addr7) (rnw : Bool) (k : State → State) (s : State) : State :=
  phy (.addr a rnw)
    (fun r s =>
      match r with
      | .ack => k s
      | .nack => raiseError .anack { s with seq.nackb := true }
      | .err j => raiseError j s
      | _ => s)
    s

/-- A code or data byte that only an error can disturb (R287, R294). -/
def sendByte (b : Byte) (k : State → State) (s : State) : State :=
  phy (.wbyte b false)
    (fun r s =>
      match r with
      | .ok => k s
      | .err j => raiseError j s
      | _ => s)
    s

/-- S_DATA is entered when CUR has data, else the message is over. -/
def toData (n : BitVec 16) (done : State → State) (s : State) : State :=
  if n = 0 then done s else enter .data .data s

/-- After a data byte of CUR: the next one, or the message is over. -/
def afterByte (n : BitVec 16) (done : State → State) (s : State) : State :=
  if n.toNat ≤ s.seq.curdone.toNat then done s else s

/-- One data byte written by CUR (R287, R289, R302, R303). -/
def writeData (i2c : Bool) (n : BitVec 16) (done : State → State) (s : State) : State :=
  nextTxByte
    (fun b s =>
      phy (.wbyte b i2c)
        (fun r s =>
          match r with
          | .ok => afterByte n done (countCur (popTx s))
          | .nack => raiseError .dnack { s with seq.nackb := true }
          | .err j => raiseError j s
          | _ => s)
        s)
    s

/-- A byte received by CUR, once stored: an I3C target may end the read early (R289, `read_i3c`). -/
def readStored (i2c : Bool) (n : BitVec 16) (more : Bool) (done : State → State) (s : State) : State :=
  let s := countCur s
  if n.toNat ≤ s.seq.curdone.toNat then done s
  else if i2c || more then s
  else
    done
      { s with
        seq.early := true
        cnt.rxrem := s.cnt.rxrem - (n - s.seq.curdone).setWidth 32 }

/-- One data byte read by CUR (R289, R303); a byte that RXFIFO had no room for is tried again (R288). -/
def readData (i2c : Bool) (n : BitVec 16) (done : State → State) (s : State) : State :=
  match s.work.rxHold with
  | some (b, more) => storeRxByte b more (readStored i2c n more done) s
  | none =>
    phy (.rbyte i2c (decide (n.toNat ≤ s.seq.curdone.toNat + 1)))
      (fun r s =>
        match r with
        | .byte b more => storeRxByte b more (readStored i2c n more done) s
        | .err j => raiseError j s
        | _ => s)
      s

/-- S_END is next. -/
def messageDone (s : State) : State := enter .fin .start s

/-- The role change after the completion of a START whose GETACCCR was answered (spec/46_events.md R530). -/
def roleToTarget (s : State) : State :=
  if s.seq.handover then
    relisten { s with seq.handover := false, ctl.mode := .target, tgt.phase := .idle }
  else s

/-- The completion of the transfer (R290); host words left in CFIFO are flushed (spec/42_fifo.md R341; log entry 19). -/
def completeTransfer (s : State) : State :=
  let s := { s with fifo.txfifo := [], fifo.cfifo := [], cnt.txrem := 0, seq.phase := .idle, work.micro := .start }
  roleToTarget (finish .ok s.cnt.msgcnt (flag .xferDone (setLife .idle s)))

/-- After the end of CUR: the next word, or completion once RXREM = 0 (R290). -/
def afterWord (s : State) : State :=
  if s.cnt.ctrlrem = 0 ∧ s.fifo.cfifo = [] ∧ s.seq.frame = false then
    if s.cnt.rxrem = 0 then completeTransfer s else goto .drain s
  else enter .fetch .start s

/-- A descriptor has completed: its status word, MSGCNT (R290). -/
def descriptorDone (s : State) : State :=
  { s with
    fifo.sfifo := if s.cfg.sfen then s.fifo.sfifo ++ [statusOfCur s] else s.fifo.sfifo
    cnt.msgcnt := s.cnt.msgcnt + 1 }

/-- S_END (R290). -/
def endWord (mend : Bool) (s : State) : State :=
  if s.work.micro = .drain then
    if s.cnt.rxrem = 0 then completeTransfer s else s
  else if s.cfg.sfen && sfifoFull s then raiseError .covr s
  else if mend then phy .stop (fun _ s => afterWord { descriptorDone s with seq.frame := false }) s
  else afterWord (descriptorDone s)

/-! ## CW_CCC (R287) -/

/-- The broadcast part is over: the DIRECT word follows, or the message is complete (R287). -/
def cccSent (code : Byte) (s : State) : State :=
  if 0x80 ≤ code.toNat then enter .fetch .start { s with seq.ccchdr := true } else messageDone s

/-- The requests of S_ADDR for a CCC word (R286, R287). -/
def cccAddr (code : Byte) (n : BitVec 16) (s : State) : State :=
  match s.work.micro with
  | .start => messageStart (fun _ => .hdr) s
  | .hdr => sendHeader (goto .code) s
  | .code => sendByte code (fun s => toData n (cccSent code) { s with seq.ccclast := code }) s
  | _ => s

/-- CW_CCC is legal at fetch (R291). -/
def cccLegal (mend arb : Bool) (code : Byte) (s : State) : Bool :=
  !arb && !(decide (0x80 ≤ code.toNat) && mend) && !s.seq.ccchdr

/-- CW_CCC (spec/41_controller.md R287). -/
def execCwCcc (mend arb : Bool) (code : Byte) (dcnt : BitVec 16) (s : State) : Host.Outcome State Fault Refusal :=
  .next
    (match s.seq.phase with
    | .idle => s
    | .fetch => fetchWord (cccWord mend arb code dcnt) (cccLegal mend arb code s) s
    | .addr => if s.ctl.suspended then s else cccAddr code dcnt s
    | .data => writeData false dcnt (cccSent code) s
    | .fin => endWord mend s)

/-! ## CW_PRIV and CW_I2C (R302, R303) -/

/-- The request after the message start: the arbitration header when the word begins with START and asks for it. -/
def privNext (arb bws : Bool) : Micro := if bws && arb then .hdr else .addr

/-- The requests of S_ADDR for a PRIV or I2C word (R286, R302, R303). -/
def privAddr (arb : Bool) (a : Addr7) (rnw : Bool) (n : BitVec 16) (s : State) : State :=
  match s.work.micro with
  | .start => messageStart (privNext arb) s
  | .hdr => sendHeader (goto .rstart) s
  | .rstart => phy .rstart (fun _ s => goto .addr s) s
  | .addr => sendAddress a rnw (toData n messageDone) s
  | _ => s

/-- The data of a PRIV or I2C word (R302, R303). -/
def privData (i2c rnw : Bool) (n : BitVec 16) (s : State) : State :=
  if rnw then readData i2c n messageDone s else writeData i2c n messageDone s

/-- CW_PRIV (spec/41_controller.md R302). -/
def execCwPriv (mend arb : Bool) (addr : Addr7) (rnw : Bool) (dcnt : BitVec 16) (s : State) :
    Host.Outcome State Fault Refusal :=
  .next
    (match s.seq.phase with
    | .idle => s
    | .fetch => fetchWord (addrWord 2#4 mend arb addr rnw dcnt) (!s.seq.ccchdr) s
    | .addr => if s.ctl.suspended then s else privAddr arb addr rnw dcnt s
    | .data => privData false rnw dcnt s
    | .fin => endWord mend s)

/-- CW_I2C (spec/41_controller.md R303). -/
def execCwI2c (mend arb : Bool) (addr : Addr7) (rnw : Bool) (dcnt : BitVec 16) (s : State) :
    Host.Outcome State Fault Refusal :=
  .next
    (match s.seq.phase with
    | .idle => s
    | .fetch => fetchWord (addrWord 3#4 mend arb addr rnw dcnt) (!s.seq.ccchdr) s
    | .addr => if s.ctl.suspended then s else privAddr arb addr rnw dcnt s
    | .data => privData true rnw dcnt s
    | .fin => endWord mend s)

/-! ## CW_DIRECT (R289) -/

/-- A GETACCCR answer is the offered address with odd parity (spec/46_events.md R530). -/
def acccrOk (a : Addr7) (b : Byte) : Bool := bitField b 1 7 == a && oddParity b

/-- The direct part is over; a GETACCCR read is checked (R289, spec/46_events.md R530). -/
def directDone (a : Addr7) (rnw : Bool) (s : State) : State :=
  if rnw && s.seq.ccclast == 0x91#8 then
    if s.seq.curdone = 0 then raiseError .ce3 s
    else if acccrOk a s.work.lastRx then messageDone { s with seq.handover := true }
    else raiseError .derr s
  else messageDone s

/-- The requests of S_ADDR for a DIRECT word (R289). -/
def directAddr (a : Addr7) (rnw : Bool) (n : BitVec 16) (s : State) : State :=
  match s.work.micro with
  | .start => phy .rstart (fun _ s => goto .addr { s with seq.bws := false }) s
  | .addr => sendAddress a rnw (fun s => toData n (directDone a rnw) { s with seq.ccchdr := false }) s
  | _ => s

/-- The data of a DIRECT word (R289). -/
def directData (a : Addr7) (rnw : Bool) (n : BitVec 16) (s : State) : State :=
  if rnw then readData false n (directDone a rnw) s else writeData false n (directDone a rnw) s

/-- CW_DIRECT (spec/41_controller.md R289). -/
def execCwDirect (mend arb : Bool) (addr : Addr7) (rnw : Bool) (dcnt : BitVec 16) (s : State) :
    Host.Outcome State Fault Refusal :=
  .next
    (match s.seq.phase with
    | .idle => s
    | .fetch => fetchWord (addrWord 4#4 mend arb addr rnw dcnt) (s.seq.ccchdr && !arb) s
    | .addr => if s.ctl.suspended then s else directAddr addr rnw dcnt s
    | .data => directData addr rnw dcnt s
    | .fin => endWord mend s)

/-! ## SETDASA (R294) -/

/-- The operands of SETDASA that name no address (R294). -/
def setdasaArgsOk (s : State) : Bool :=
  argFits7 s.arg.arg0 && argFits7 s.arg.arg1 && argAddr s.arg.arg0 != broadcastAddr

/-- The effective new address of SETDASA (R294). -/
def setdasaDa (s : State) : Addr7 := effectiveDa (argAddr s.arg.arg0) (argAddr s.arg.arg1)

/-- The rejection of an invalid new address: DYNADDR is latched and flagged, RESERR holds its bit (R294, R567). -/
def rejectDynaddr (s : State) : State :=
  { latchFlag .dynaddr (reject .invalidParam s) with rep.reserr := errBit .dynaddr }

/-- The acceptance actions of SETDASA (R294). -/
def setdasaAccept (st : Strat) (s : State) : State :=
  let s := accept opSetdasa st s.arg.arg2 s
  { s with
    ctl.life := .tx
    cnt.datacnt := 0
    work.opAddr := argAddr s.arg.arg0
    work.opData := setdasaDa s }

/-- SETDASA (spec/41_controller.md R294). -/
def execSetdasa (strat : Strat) (_sub : Byte) (s : State) : Host.Outcome State Fault Refusal :=
  .next
    (match gate .controller .idle true [.poll, .irq] strat s with
    | some c => reject c s
    | none =>
      if !setdasaArgsOk s then reject .invalidParam s
      else if !validDa (setdasaDa s) then rejectDynaddr s
      else setdasaAccept strat s)

/-- START of a one-shot command, with target requests handled first (R294, R295). -/
def oneShotStart (next : Micro) (s : State) : State :=
  phy .start
    (fun r s =>
      match r with
      | .arb a rnw => beginRequest a rnw s
      | _ => goto next { s with seq.frame := true })
    s

/-- A one-shot command finishes OK (R294, R295, R296). -/
def oneShotDone (aux : BitVec 16) (s : State) : State :=
  finish .ok aux (flag .xferDone (setLife .idle (goto .start s)))

/-- One ENGINE step of SETDASA (R294). -/
def setdasaStep (s : State) : State :=
  match s.work.micro with
  | .start => oneShotStart .hdr s
  | .hdr => sendHeader (goto .code) s
  | .code => sendByte 0x87#8 (goto .rstart) s
  | .rstart => phy .rstart (fun _ s => goto .addr s) s
  | .addr =>
    phy (.addr s.work.opAddr false)
      (fun r s =>
        match r with
        | .ack => goto .data s
        | .nack => raiseError .anack s
        | .err j => raiseError j s
        | _ => s)
      s
  | .data => sendByte (addrByte s.work.opData false) (fun s => goto .stop { s with cnt.datacnt := 1 }) s
  | .stop => phy .stop (fun _ s => oneShotDone 0 { s with seq.frame := false }) s
  | .quit => s
  | .drain => s

/-! ## PROBE (R295) -/

/-- The argument checks of PROBE (R295). -/
def probeArgsOk (sub : Byte) (s : State) : Bool :=
  decide (sub.toNat ≤ 1) && argFits7 s.arg.arg0 && s.arg.arg1 != 0#32 &&
    (if sub = 0#8 then validDa (argAddr s.arg.arg0) else argAddr s.arg.arg0 != broadcastAddr)

/-- The acceptance actions of PROBE (R295). -/
def probeAccept (st : Strat) (sub : Byte) (s : State) : State :=
  let s := accept opProbe st s.arg.arg2 s
  { s with
    ctl.life := .tx
    cnt.datacnt := 0
    work.opAddr := argAddr s.arg.arg0
    work.opI2c := sub == 1#8
    work.opOk := true
    work.trial := 1
    work.trials := s.arg.arg1 }

/-- PROBE (spec/41_controller.md R295). -/
def execProbe (strat : Strat) (sub : Byte) (s : State) : Host.Outcome State Fault Refusal :=
  .next (longCommand (gate .controller .idle true [.poll] strat s) (probeArgsOk sub s) (probeAccept strat sub) s)

/-- A request of a trial that a NACK fails (R295). -/
def probeAddr (a : Addr7) (next : Micro) (s : State) : State :=
  phy (.addr a false)
    (fun r s =>
      match r with
      | .ack => goto next s
      | .nack => goto .stop { s with work.opOk := false }
      | .err j => raiseError j s
      | _ => s)
    s

/-- The end of a trial: success, another trial, or ANACK after the last (R295). -/
def probeTrialEnd (s : State) : State :=
  if s.work.opOk then oneShotDone (bitField s.work.trial 0 16) s
  else if s.work.trials.toNat ≤ s.work.trial.toNat then raiseError .anack s
  else goto .start { s with work.trial := s.work.trial + 1, work.opOk := true }

/-- One ENGINE step of PROBE (R295). FRAME is 1 from START to STOP: log entry 10. -/
def probeStep (s : State) : State :=
  match s.work.micro with
  | .start => oneShotStart (if s.work.opI2c then .addr else .hdr) s
  | .hdr => probeAddr broadcastAddr .rstart s
  | .rstart => phy .rstart (fun _ s => goto .addr s) s
  | .addr => probeAddr s.work.opAddr .stop s
  | .stop => phy .stop (fun _ s => probeTrialEnd { s with seq.frame := false }) s
  | .code => s
  | .data => s
  | .quit => s
  | .drain => s

/-! ## BUS_RECOVER (R296) -/

/-- BUS_RECOVER (spec/41_controller.md R296). -/
def execBusRecover (strat : Strat) (_sub : Byte) (s : State) : Host.Outcome State Fault Refusal :=
  .next
    (match gate .controller .idle false [.poll] strat s with
    | some c => reject c s
    | none => setLife .tx (accept opBusRecover strat 0 s))

/-- The one ENGINE step of BUS_RECOVER (R296). -/
def recoverStep (s : State) : State :=
  phy .recover (fun _ s => oneShotDone 0 { s with ctl.recov := false, seq.frame := false }) s

end Sys2Proof.Machine
end

