-- ==== Sys2Proof/Machine/Daa.lean ====
section
/-! DEFINITION. Dynamic address assignment and the payload decoder (spec/43_daa.md): the commands DAA and DECODE_PAYLOAD, and
the phases of a round. -/

namespace Sys2Proof.Machine

/-! ## DECODE_PAYLOAD (R395) -/

/-- DEC0: BCR, DCR, IDTSEL, MIPIID (R395). -/
def dec0Of (p : BitVec 64) : Word :=
  place (bitField p 8 8) 0 ||| place (bitField p 0 8) 8 ||| place (bitField p 48 1) 16 ||| place (bitField p 28 4) 20

/-- DEC1: MIPIMID, PARTID (R395). -/
def dec1Of (p : BitVec 64) : Word := place (bitField p 49 15) 0 ||| place (bitField p 32 16) 16

/-- DEC2: PIDEXT (R395). -/
def dec2Of (p : BitVec 64) : Word := place (bitField p 16 12) 0

/-- DEC3: the BCR flags (R395). -/
def dec3Of (p : BitVec 64) : Word := place (bitField p 8 8) 0

/-- DEC0..DEC3 of a payload (R395). -/
def decodePayload (p : BitVec 64) (s : State) : State :=
  { s with dec := { dec0 := dec0Of p, dec1 := dec1Of p, dec2 := dec2Of p, dec3 := dec3Of p } }

/-- DECODE_PAYLOAD (spec/43_daa.md R395). -/
def execDecodePayload (_strat : Strat) (_sub : Byte) (s : State) : Host.Outcome State Fault Refusal :=
  .next (presult .ok (decodePayload (s.arg.arg1 ++ s.arg.arg0) s))

/-! ## DAA (R381) -/

/-- The argument checks of DAA (R381). -/
def daaArgsOk (st : Strat) (sub : Byte) (s : State) : Bool :=
  decide (sub.toNat ≤ 1) && !(st == .poll && s.arg.arg1 != 0#32 && !aligned4 s.arg.arg0)

/-- The acceptance actions of DAA (R381). DAAPTR and DAAROOM are loaded under either strategy: log entry 25. -/
def daaAccept (st : Strat) (sub : Byte) (s : State) : State :=
  let s := accept opDaa st s.arg.arg2 s
  { s with
    ctl.life := .daa
    cnt.datacnt := 0
    daa.cnt := 0
    daa.da := 0
    daa.ptr := addrOf s s.arg.arg0
    daa.room := s.arg.arg1
    daa.next := s.cfg.daabase
    daa.phase := if sub = 0#8 then .rstdaa else .entdaa }

/-- DAA (spec/43_daa.md R381). -/
def execDaa (strat : Strat) (sub : Byte) (s : State) : Host.Outcome State Fault Refusal :=
  .next (longCommand (gate .controller .idle true [.poll, .irq] strat s) (daaArgsOk strat sub s) (daaAccept strat sub) s)

/-! ## The phases of a round -/

/-- The next phase of the round. -/
def daaEnter (p : DaaPhase) (s : State) : State := { s with daa.phase := p, work.micro := .start }

/-- Round end (R392). -/
def roundEnd (s : State) : State :=
  finish .ok (s.daa.cnt.setWidth 16) (flag .daaDone (setLife .idle (daaEnter .idle s)))

/-- The STOP that ends the round (R382, R383, R384). -/
def roundStop (s : State) : State := phy .stop (fun _ s => roundEnd { s with seq.frame := false }) s

/-- ADDR(0x7E, rnw) of a round: a NACK is not CE2, it ends the round (R382, R383, R384). -/
def daaHeader (rnw : Bool) (next : Micro) (s : State) : State :=
  phy (.addr broadcastAddr rnw)
    (fun r s =>
      match r with
      | .ack => goto next s
      | .nack => goto .quit s
      | .err j => raiseError j s
      | _ => s)
    s

/-- D_RSTDAA (R382). -/
def rstdaaStep (s : State) : State :=
  match s.work.micro with
  | .start => oneShotStart .hdr s
  | .hdr => daaHeader false .code s
  | .code => sendByte 0x06#8 (goto .stop) s
  | .stop => phy .stop (fun _ s => daaEnter .entdaa { s with seq.frame := false }) s
  | .quit => roundStop s
  | .rstart => s
  | .addr => s
  | .data => s
  | .drain => s

/-- D_ENTDAA (R383). -/
def entdaaStep (s : State) : State :=
  match s.work.micro with
  | .start => oneShotStart .hdr s
  | .hdr => daaHeader false .code s
  | .code => sendByte 0x07#8 (daaEnter .loop) s
  | .quit => roundStop s
  | .stop => s
  | .rstart => s
  | .addr => s
  | .data => s
  | .drain => s

/-- A payload has been received (R384). -/
def takePayload (p : BitVec 64) (s : State) : State :=
  daaEnter .assign
    { s with daa.pl0 := bitField p 0 32, daa.pl1 := bitField p 32 32, cnt.datacnt := s.cnt.datacnt + 8 }

/-- The next device is asked for, unless the host has not consumed the last payload (hold) or the output array is full
(R384). -/
def loopStart (s : State) : State :=
  if s.ctl.strat = .irq ∧ s.rep.isr.getLsbD (flagIndex .daaDev) = true then s
  else if s.ctl.strat = .poll ∧ s.daa.room = 0 then roundStop s
  else phy .rstart (fun _ s => goto .addr s) s

/-- D_LOOP (R384). -/
def loopStep (s : State) : State :=
  match s.work.micro with
  | .start => loopStart s
  | .addr => daaHeader true .data s
  | .data =>
    phy .daaRead
      (fun r s =>
        match r with
        | .payload p => takePayload p s
        | .err j => raiseError j s
        | _ => s)
      s
  | .quit => roundStop s
  | .hdr => s
  | .code => s
  | .stop => s
  | .rstart => s
  | .drain => s

/-- Payload storage under POLL (R387); `none` is `mem_fault`. -/
def storePayload (s : State) : Option State :=
  match memWrite s s.daa.ptr (bytes32 s.daa.pl0 ++ bytes32 s.daa.pl1) with
  | none => none
  | some t => some { t with daa.ptr := byteAt s s.daa.ptr 8, daa.room := s.daa.room - 1 }

/-- `report(p)` (R388), then `k`; a `mem_fault` raises DMA (R387). -/
def reportPayload (k : State → State) (s : State) : State :=
  if s.ctl.strat = .poll then
    match storePayload s with
    | none => raiseError .dma s
    | some t => k (flag .daaDev t)
  else k (flag .daaDev s)

/-- The address has been allocated; under pre_assign the payload is reported now (R385; log entry 23). -/
def offerAddress (a : Addr7) (s : State) : State :=
  let s := { s with daa.da := a }
  match s.env.params.daaTiming with
  | .preAssign => reportPayload (goto .data) s
  | .postAssign => goto .data s

/-- The device took its address; under post_assign the payload is reported now (R385). DAACNT is counted before the report,
in R385's order: where the payload store answers `mem_fault`, the device is counted and its payload not reported, against
R394's equality (log entry 50). -/
def addressTaken (s : State) : State :=
  let s := { s with daa.cnt := s.daa.cnt + 1, daa.next := s.daa.da + 1 }
  match s.env.params.daaTiming with
  | .preAssign => daaEnter .loop s
  | .postAssign => reportPayload (daaEnter .loop) s

/-- D_ASSIGN (R385). -/
def assignStep (s : State) : State :=
  match s.work.micro with
  | .start =>
    match alloc s with
    | none => raiseError .dynaddr s
    | some a => offerAddress a s
  | .data =>
    phy (.daaWrite s.daa.da)
      (fun r s =>
        match r with
        | .ack => addressTaken s
        | .nack => raiseError .anack s
        | .err j => raiseError j s
        | _ => s)
      s
  | .hdr => s
  | .code => s
  | .addr => s
  | .stop => s
  | .rstart => s
  | .quit => s
  | .drain => s

/-- One ENGINE step of a round (R380). -/
def daaStep (s : State) : State :=
  match s.daa.phase with
  | .idle => s
  | .rstdaa => rstdaaStep s
  | .entdaa => entdaaStep s
  | .loop => loopStep s
  | .assign => assignStep s

end Sys2Proof.Machine
end

