-- ==== Sys2Proof/Machine/Events.lean ====
section
/-! DEFINITION. The notification commands NOTIFY_ACTIVATE, NOTIFY_DEACTIVATE and GET_CCC_INFO (spec/46_events.md R540, R541,
R546). -/

namespace Sys2Proof.Machine

/-- A block that is not initialised (R540). -/
def notInitialised (s : State) : Bool := s.ctl.life == .reset || s.ctl.mode == .none

/-- The mask holds only ids of the mode (R540). -/
def maskOk (s : State) : Bool := s.arg.arg0 &&& ~~~idMask s.ctl.mode == 0#32

/-- The mask activates N_DEFLIST. -/
def wantsList (s : State) : Bool := s.arg.arg0.getLsbD (flagIndex .nDefList)

/-- N_DEFLIST comes with a receive buffer (R540). -/
def listBufferOk (s : State) : Bool :=
  !(s.ctl.mode == .target && wantsList s && (s.arg.arg1 == 0#32 || s.arg.arg2 == 0#32))

/-- The effect of NOTIFY_ACTIVATE (R540). -/
def notifyActivate (s : State) : State :=
  let t := { s with rep.noten := s.rep.noten ||| s.arg.arg0 }
  relisten (if wantsList s then { t with snap.nbufptr := addrOf s s.arg.arg1, snap.nbuflen := s.arg.arg2 } else t)

/-- NOTIFY_ACTIVATE (spec/46_events.md R540). -/
def execNotifyActivate (_strat : Strat) (_sub : Byte) (s : State) : Host.Outcome State Fault Refusal :=
  .next
    (if notInitialised s then presult .busy s
    else if maskOk s && listBufferOk s then presult .ok (notifyActivate s)
    else presult .invalidParam s)

/-- NOTIFY_DEACTIVATE (spec/46_events.md R541). -/
def execNotifyDeactivate (_strat : Strat) (_sub : Byte) (s : State) : Host.Outcome State Fault Refusal :=
  .next
    (if notInitialised s then presult .busy s
    else if maskOk s then presult .ok (relisten { s with rep.noten := s.rep.noten &&& ~~~s.arg.arg0 })
    else presult .invalidParam s)

/-- The slot index of a notification id 16..26 (R546). -/
def slotOfId (id : Word) : Option (Fin 11) :=
  if 16 ≤ id.toNat then
    if h : id.toNat - 16 < 11 then some ⟨id.toNat - 16, h⟩ else none
  else none

/-- INFO0 of a slot (spec/30_encoding.md R172). -/
def info0Of (r : Slot) : Word :=
  place r.da 0 ||| place (bit r.dav) 7 ||| place r.rstact 8 ||| place r.act 16 ||| place (bit r.enint) 18 |||
    place (bit r.encr) 19 ||| place (bit r.enhj) 20

/-- INFO1 of a slot (spec/30_encoding.md R172). -/
def info1Of (r : Slot) : Word := place r.mwl 0 ||| place r.mrl 16

/-- The slot is copied and its PEND cleared (R546). -/
def takeSlot (i : Fin 11) (s : State) : State :=
  { s with
    snap.info0 := info0Of s.snap.slots[i]
    snap.info1 := info1Of s.snap.slots[i]
    snap.slots := s.snap.slots.set i { s.snap.slots[i] with pend := false } }

/-- GET_CCC_INFO (spec/46_events.md R546). -/
def execGetCccInfo (_strat : Strat) (_sub : Byte) (s : State) : Host.Outcome State Fault Refusal :=
  .next
    (if s.ctl.mode ≠ .target ∨ s.ctl.life = .reset then presult .busy s
    else
      match slotOfId s.arg.arg0 with
      | none => presult .invalidParam s
      | some i => if s.snap.slots[i].pend then presult .ok (takeSlot i s) else presult .invalidParam s)

end Sys2Proof.Machine
end

