-- ==== Sys2Proof/Machine/Lifecycle.lean ====
section
/-! DEFINITION. The lifecycle commands INIT, DEINIT and ABORT (spec/41_controller.md R300, R301, R292). -/

namespace Sys2Proof.Machine

/-- The mode that INIT's SUB names (R300). -/
def initMode (sub : Byte) : Option Mode :=
  if sub = 1#8 then some .controller else if sub = 2#8 then some .target else none

/-- The acceptance actions of INIT (R300): the reset values, PENDOP's too (log entry 26), but for MODE, STATE and CMDP. -/
def initAccept (m : Mode) (s : State) : State :=
  { resetBlock s with ctl := { Control.reset with mode := m, life := .init, cmdp := true } }

/-- INIT (spec/41_controller.md R300). -/
def execInit (strat : Strat) (sub : Byte) (s : State) : Host.Outcome State Fault Refusal :=
  .next
    (match gate .none .reset false [.poll] strat s, initMode sub with
    | some c, _ => reject c s
    | none, none => reject .invalidParam s
    | none, some m => initAccept m s)

/-- The ENGINE step that is enabled when STATE = INIT (R300). -/
def initDone (s : State) : State := finish .ok 0 (setLife .idle s)

/-- DEINIT is accepted (R301), also while a target request is handled with no command pending: log entry 42. -/
def deinitOk (s : State) : Bool := (s.ctl.life == .init || s.ctl.life == .idle) && !s.ctl.cmdp

/-- DEINIT (spec/41_controller.md R301). -/
def execDeinit (_strat : Strat) (_sub : Byte) (s : State) : Host.Outcome State Fault Refusal :=
  .next (if deinitOk s then presult .ok (resetBlock s) else presult .busy s)

/-- ABORT is accepted (R292; the mode it needs is R171's). -/
def abortOk (s : State) : Bool :=
  (s.ctl.mode != .none) &&
    (s.ctl.life == .tx || s.ctl.life == .rx || s.ctl.life == .txrx || s.ctl.life == .tgtreq) &&
    s.ctl.cmdp && !s.ctl.abortreq

/-- The effect of an accepted ABORT (R292). -/
def abortAccept (s : State) : State :=
  { s with ctl.abortreq := true, ctl.life := .abort, ctl.suspended := false, ctl.tmo := false }

/-- ABORT (spec/41_controller.md R292). -/
def execAbort (_strat : Strat) (_sub : Byte) (s : State) : Host.Outcome State Fault Refusal :=
  .next (if abortOk s then presult .ok (abortAccept s) else presult .busy s)

end Sys2Proof.Machine
end

