-- ==== Sys2Proof/Machine/Dispatch.lean ====
section
/-! DEFINITION. The dispatch: one arm per instruction, one direct call of its meaning. -/

namespace Sys2Proof.Machine

def exec (i : Instr) (s : State) : Host.Outcome State Fault Refusal :=
  match i with
  | .ctxReset strat sub => Sys2Proof.Machine.execCtxReset strat sub s
  | .ctxBind strat sub => Sys2Proof.Machine.execCtxBind strat sub s
  | .buildPrivate strat sub => Sys2Proof.Machine.execBuildPrivate strat sub s
  | .buildCcc strat sub => Sys2Proof.Machine.execBuildCcc strat sub s
  | .decodePayload strat sub => Sys2Proof.Machine.execDecodePayload strat sub s
  | .init strat sub => Sys2Proof.Machine.execInit strat sub s
  | .deinit strat sub => Sys2Proof.Machine.execDeinit strat sub s
  | .start strat sub => Sys2Proof.Machine.execStart strat sub s
  | .abort strat sub => Sys2Proof.Machine.execAbort strat sub s
  | .daa strat sub => Sys2Proof.Machine.execDaa strat sub s
  | .setdasa strat sub => Sys2Proof.Machine.execSetdasa strat sub s
  | .probe strat sub => Sys2Proof.Machine.execProbe strat sub s
  | .busRecover strat sub => Sys2Proof.Machine.execBusRecover strat sub s
  | .tgtTx strat sub => Sys2Proof.Machine.execTgtTx strat sub s
  | .tgtRx strat sub => Sys2Proof.Machine.execTgtRx strat sub s
  | .hjReq strat sub => Sys2Proof.Machine.execHjReq strat sub s
  | .crReq strat sub => Sys2Proof.Machine.execCrReq strat sub s
  | .ibiReq strat sub => Sys2Proof.Machine.execIbiReq strat sub s
  | .notifyActivate strat sub => Sys2Proof.Machine.execNotifyActivate strat sub s
  | .notifyDeactivate strat sub => Sys2Proof.Machine.execNotifyDeactivate strat sub s
  | .getCccInfo strat sub => Sys2Proof.Machine.execGetCccInfo strat sub s
  | .cwCcc mend arb code dcnt => Sys2Proof.Machine.execCwCcc mend arb code dcnt s
  | .cwPriv mend arb addr rnw dcnt => Sys2Proof.Machine.execCwPriv mend arb addr rnw dcnt s
  | .cwI2c mend arb addr rnw dcnt => Sys2Proof.Machine.execCwI2c mend arb addr rnw dcnt s
  | .cwDirect mend arb addr rnw dcnt => Sys2Proof.Machine.execCwDirect mend arb addr rnw dcnt s
  | .enecB => Sys2Proof.Machine.execEnecB s
  | .disecB => Sys2Proof.Machine.execDisecB s
  | .entas0B => Sys2Proof.Machine.execEntas0B s
  | .entas1B => Sys2Proof.Machine.execEntas1B s
  | .entas2B => Sys2Proof.Machine.execEntas2B s
  | .entas3B => Sys2Proof.Machine.execEntas3B s
  | .rstdaaB => Sys2Proof.Machine.execRstdaaB s
  | .entdaa => Sys2Proof.Machine.execEntdaa s
  | .deftgts => Sys2Proof.Machine.execDeftgts s
  | .setmwlB => Sys2Proof.Machine.execSetmwlB s
  | .setmrlB => Sys2Proof.Machine.execSetmrlB s
  | .rstactB => Sys2Proof.Machine.execRstactB s
  | .defgrpa => Sys2Proof.Machine.execDefgrpa s
  | .enecD => Sys2Proof.Machine.execEnecD s
  | .disecD => Sys2Proof.Machine.execDisecD s
  | .entas0D => Sys2Proof.Machine.execEntas0D s
  | .entas1D => Sys2Proof.Machine.execEntas1D s
  | .entas2D => Sys2Proof.Machine.execEntas2D s
  | .entas3D => Sys2Proof.Machine.execEntas3D s
  | .rstdaaD => Sys2Proof.Machine.execRstdaaD s
  | .setdasaCcc => Sys2Proof.Machine.execSetdasaCcc s
  | .setnewda => Sys2Proof.Machine.execSetnewda s
  | .setmwlD => Sys2Proof.Machine.execSetmwlD s
  | .setmrlD => Sys2Proof.Machine.execSetmrlD s
  | .getmwl => Sys2Proof.Machine.execGetmwl s
  | .getmrl => Sys2Proof.Machine.execGetmrl s
  | .getpid => Sys2Proof.Machine.execGetpid s
  | .getbcr => Sys2Proof.Machine.execGetbcr s
  | .getdcr => Sys2Proof.Machine.execGetdcr s
  | .getstatus => Sys2Proof.Machine.execGetstatus s
  | .getacccr => Sys2Proof.Machine.execGetacccr s
  | .rstactD => Sys2Proof.Machine.execRstactD s
  | .enthdr hdr => Sys2Proof.Machine.execEnthdr hdr s

end Sys2Proof.Machine
end

