-- ==== Sys2Proof/Machine/Registers.lean ====
section
/-! DEFINITION. The host's register file but for CMD (spec/10_state.md R52–R71, R83–R86; spec/42_fifo.md R341–R344;
spec/20_memory.md R131, R134). -/

namespace Sys2Proof.Machine

/-- A register access that the spec gives a meaning: 32 bits wide, at a multiple of 4 (spec/20_memory.md R131). -/
def accessOk (off : Byte) (width : Nat) : Bool := width == 4 && bitField off 0 2 == 0#2

/-- The configuration registers accept writes (spec/10_state.md R84, R86). -/
def configurable (s : State) : Bool := s.ctl.life == .init || s.ctl.life == .idle

/-- The value of a register whose read has no side effect (spec/10_state.md R84, R85). -/
def regValue (s : State) (off : Byte) : Word :=
  match off.toNat with
  | 0x004 => s.arg.arg0
  | 0x008 => s.arg.arg1
  | 0x00C => s.arg.arg2
  | 0x010 => s.arg.arg3
  | 0x014 => resultWord s
  | 0x018 => place s.rep.reserr 0
  | 0x01C => statusWord s
  | 0x020 => errWord s
  | 0x024 => s.cnt.datacnt
  | 0x028 => place s.cnt.msgcnt 0
  | 0x02C => s.rep.ier
  | 0x030 => s.rep.isr
  | 0x034 => s.rep.noten
  | 0x038 => fifocfgWord s
  | 0x03C => fifoLvl0Word s
  | 0x040 => fifoLvl1Word s
  | 0x044 => fifoReqWord s
  | 0x058 => s.cfg.timing0
  | 0x05C => s.cfg.timing1
  | 0x060 => ownaddrWord s
  | 0x064 => tgtcharWord s
  | 0x068 => s.cfg.pid0
  | 0x06C => place s.cfg.pid1 0
  | 0x070 => maxlenWord s
  | 0x074 => tgtstateWord s
  | 0x078 => place s.cfg.daabase 0
  | 0x07C => place s.daa.cnt 0
  | 0x080 => s.daa.pl0
  | 0x084 => s.daa.pl1
  | 0x088 => place s.daa.da 0
  | 0x08C => place (bit s.cfg.hjack) 0
  | 0x090 => bdtWord s.cfg.bdt[0]
  | 0x094 => bdtWord s.cfg.bdt[1]
  | 0x098 => bdtWord s.cfg.bdt[2]
  | 0x09C => bdtWord s.cfg.bdt[3]
  | 0x0A0 => ibirecWord s
  | 0x0A4 => s.ibi.data
  | 0x0A8 => s.snap.info0
  | 0x0AC => s.snap.info1
  | 0x0B0 => s.dec.dec0
  | 0x0B4 => s.dec.dec1
  | 0x0B8 => s.dec.dec2
  | 0x0BC => s.dec.dec3
  | 0x0C0 => if s.env.params.userData then s.cfg.userdata else 0
  | 0x0C4 => BitVec.ofNat 32 s.snap.nbufptr
  | 0x0C8 => s.snap.nbuflen
  | 0x0CC => place s.cnt.ctrlrem 0
  | 0x0D0 => s.cnt.txrem
  | 0x0D4 => s.cnt.rxrem
  | 0x0D8 => place s.rep.pcode 0
  | _ => 0

/-- A read of SFIFO (spec/42_fifo.md R342). -/
def popSfifo (s : State) : Word × State :=
  match s.fifo.sfifo with
  | w :: r => (w, { s with fifo.sfifo := r })
  | [] => (0, latchFlag .covr s)

/-- A read of RXFIFO (spec/42_fifo.md R344). -/
def popRxfifo (s : State) : Word × State :=
  match s.fifo.rxfifo with
  | b :: r =>
    (place b 0, { s with fifo.rxfifo := r, cnt.rxrem := if s.cnt.rxrem = 0 then 0 else s.cnt.rxrem - 1 })
  | [] => (0, latchFlag .dovr s)

/-- The value a read returns, and the state after it (spec/20_memory.md R134). -/
def readReg (off : Byte) (s : State) : Word × State :=
  if off = 0x4C#8 then popSfifo s else if off = 0x54#8 then popRxfifo s else (regValue s off, s)

/-- A host read (log entry 33). -/
def hostRead (off : Byte) (s : State) : State :=
  let r := readReg off s
  { r.2 with env.hostRead := r.1 }

/-- A write of CFIFO (spec/42_fifo.md R341). -/
def pushCfifo (w : Word) (s : State) : State :=
  if s.ctl.mode = .controller ∧ (s.ctl.life = .tx ∨ s.ctl.life = .rx ∨ s.ctl.life = .txrx) ∧ s.ctl.strat ≠ .dma then
    if cfifoFull s then latchFlag .covr s else { s with fifo.cfifo := s.fifo.cfifo ++ [w] }
  else s

/-- A write of TXFIFO (spec/42_fifo.md R343). -/
def pushTxfifo (w : Word) (s : State) : State :=
  if (pending opStart s || pending opTgtTx s || pending opIbiReq s) = true ∧ s.ctl.strat ≠ .dma then
    if txfifoFull s then latchFlag .dovr s else { s with fifo.txfifo := s.fifo.txfifo ++ [bitField w 0 8] }
  else s

/-- A write of ISR: write-one-to-clear (spec/10_state.md R55, R48); a notification's pending snapshot goes with its flag
(log entry 30). -/
def clearIsr (v : Word) (s : State) : State :=
  { s with
    rep.isr := s.rep.isr &&& ~~~v
    ctl.suspended := s.ctl.suspended && !v.getLsbD (flagIndex .ibi)
    snap.slots :=
      Vector.ofFn fun i : Fin 11 =>
        { s.snap.slots[i] with pend := s.snap.slots[i].pend && !v.getLsbD (16 + i.val) } }

/-- A write of ERR: write-one-to-clear (spec/10_state.md R52). -/
def clearErr (v : Word) (s : State) : State := { s with rep.err := s.rep.err &&& ~~~bitField v 0 19 }

/-- A write of OWNADDR (spec/10_state.md R64). -/
def writeOwnaddr (v : Word) (s : State) : State :=
  if v.getLsbD 7 && !validDa (bitField v 0 7) then latchFlag .dynaddr s
  else
    { s with
      cfg.da := bitField v 0 7
      cfg.dav := v.getLsbD 7
      cfg.sa := bitField v 8 7
      cfg.sav := v.getLsbD 15 }

/-- A write of a Bus Device Table entry (spec/10_state.md R71). -/
def writeBdt (i : Fin 4) (v : Word) (s : State) : State :=
  if v.getLsbD 7 && !validDa (bitField v 0 7) then latchFlag .dynaddr s
  else { s with cfg.bdt := s.cfg.bdt.set i (bdtOf v) }

/-- A write of a register that accepts writes in INIT and IDLE only (spec/10_state.md R84). -/
def writeConfig (off : Byte) (v : Word) (s : State) : State :=
  match off.toNat with
  | 0x038 => { s with cfg.txthr := v.getLsbD 0, cfg.rxthr := v.getLsbD 1, cfg.sfen := v.getLsbD 2 }
  | 0x058 => { s with cfg.timing0 := v }
  | 0x05C => { s with cfg.timing1 := v }
  | 0x060 => writeOwnaddr v s
  | 0x064 => { s with cfg.bcr := bitField v 0 8, cfg.dcr := bitField v 8 8 }
  | 0x068 => { s with cfg.pid0 := v }
  | 0x06C => { s with cfg.pid1 := bitField v 0 16 }
  | 0x070 => { s with cfg.mwl := bitField v 0 16, cfg.mrl := bitField v 16 16 }
  | 0x078 => { s with cfg.daabase := bitField v 0 7 }
  | 0x08C => { s with cfg.hjack := v.getLsbD 0 }
  | 0x090 => writeBdt 0 v s
  | 0x094 => writeBdt 1 v s
  | 0x098 => writeBdt 2 v s
  | 0x09C => writeBdt 3 v s
  | _ => s

/-- A host write of a register other than CMD (spec/10_state.md R84–R86); every other offset ignores it. -/
def hostWrite (off : Byte) (v : Word) (s : State) : State :=
  match off.toNat with
  | 0x004 => { s with arg.arg0 := v }
  | 0x008 => { s with arg.arg1 := v }
  | 0x00C => { s with arg.arg2 := v }
  | 0x010 => { s with arg.arg3 := v }
  | 0x020 => clearErr v s
  | 0x02C => { s with rep.ier := v &&& flagMask }
  | 0x030 => clearIsr v s
  | 0x048 => pushCfifo v s
  | 0x050 => pushTxfifo v s
  | 0x0C0 => if s.env.params.userData then { s with cfg.userdata := v } else s
  | _ => if configurable s then writeConfig off v s else s

end Sys2Proof.Machine
end

