-- ==== Sys2Proof/Machine/Agents.lean ====
section
/-! DEFINITION. The agents (spec/00_scope.md R8): the HOST's accesses, the ENGINE's steps in either role, the PHY's events
(spec/44_target.md R424), the MOVER's actions (spec/42_fifo.md R345), the ENV's timeout; and where a word is placed so that
the next step runs it. The ENGINE takes an instruction by decoding it: a CMD write, the word at the head of CFIFO or in
CUR, the CCC code received or in force. -/

namespace Sys2Proof.Machine

/-- The outcome of a step. -/
abbrev Result := Host.Outcome State Fault Refusal

/-! ## HOST -/

/-- A write of CMD (spec/30_encoding.md R170): an instruction is executed, anything else is rejected. -/
def writeCmd (v : Word) (s : State) : Result :=
  match decode .command (bytes32 v) with
  | .ok r => exec r.1 s
  | .error _ => .next (presult .invalidParam s)

/-- A host access (spec/20_memory.md R131, R134). -/
def hostTurn (a : HostAccess) (s : State) : Result :=
  match a with
  | .read off width => if accessOk off width then .next (hostRead off s) else .refused .hostAccessShape
  | .write off width v =>
    if accessOk off width then
      if off = 0#8 then writeCmd v s else .next (hostWrite off v s)
    else .refused .hostAccessShape

/-- A byte that the host writes to system memory. -/
def hostMemTurn (a : Nat) (b : Byte) (s : State) : State := { s with mem := Memory.write s.mem (byteAt s a 0) b }

/-! ## ENGINE, controller role -/

/-- S_FETCH (spec/41_controller.md R285): the head of CFIFO is executed, or held for, or the frame was left open. -/
def fetchStep (s : State) : Result :=
  if s.ctl.suspended then .next s
  else
    match s.fifo.cfifo with
    | w :: _ =>
      match decode .control (bytes32 w) with
      | .ok r => exec r.1 s
      | .error _ => .next (fetchWord w false s)
    | [] => .next (if s.cnt.ctrlrem ≠ 0 then s else if s.seq.frame then raiseError .covr s else s)

/-- One step of the sequencer (R284). -/
def sequencerStep (s : State) : Result :=
  match s.seq.phase with
  | .idle => .next s
  | .fetch => fetchStep s
  | _ =>
    match decode .control (bytes32 s.seq.cur) with
    | .ok r => exec r.1 s
    | .error _ => .next s

/-- One ENGINE step in controller role (R280, spec/43_daa.md R380, spec/46_events.md R520). -/
def controllerStep (s : State) : Result :=
  if s.work.request ≠ .idle then .next (requestStep s)
  else if s.ctl.life = .daa then .next (daaStep s)
  else if pending opStart s then sequencerStep s
  else if pending opSetdasa s then .next (setdasaStep s)
  else if pending opProbe s then .next (probeStep s)
  else if pending opBusRecover s then .next (recoverStep s)
  else .next s

/-! ## ENGINE, target role -/

/-- The step of the CCC in force; `none` is a code that is no instruction. -/
def cccStep (k : State → State) (s : State) : Result :=
  match decode .ccc [s.tgt.ccccur] with
  | .ok r => exec r.1 s
  | .error _ => .next (k s)

/-- One ENGINE step in target role that takes no event (spec/44_target.md R421, R425–R437, spec/45_ccc_decoder.md R479). -/
def targetStep (u : EngineUnit) (s : State) : Result :=
  match u with
  | .main => .next s
  | .drive =>
    match s.tgt.phase with
    | .directR => cccStep id s
    | .privR => .next (privReadStep s)
    | _ => .next s
  | .request => .next (targetRequestStep s)
  | .close => .next (closeStep s)

/-- START, a repeated START or STOP (spec/44_target.md R424): the message or the CCC data in progress ends first. -/
def frameTurn (e : PhyEvent) (s : State) : Result :=
  match s.tgt.phase with
  | .cccData => cccStep (frameEvent e) s
  | .directW => cccStep (frameEvent e) s
  | _ => .next (frameEvent e (endMessage s))

/-- Address match (spec/44_target.md R427). -/
def matchAddr (a : Addr7) (rnw : Bool) (s : State) : Result :=
  if a = broadcastAddr ∧ rnw = false then .next (ackAddr .ccc s)
  else if a = broadcastAddr ∨ te0Addr a = true then .next (nackAddr (detect .te0 s))
  else if own s a = true ∧ 0x80 ≤ s.tgt.ccccur.toNat then cccStep nackAddr s
  else if own s a = true ∧ rnw = false ∧ pending opTgtRx s = true ∧ s.tgt.tgtend = false then
    .next (ackAddr .privW s)
  else if own s a = true ∧ rnw = true ∧ pending opTgtTx s = true ∧ s.tgt.tgtend = false then
    .next (ackAddr .privR s)
  else .next (nackAddr s)

/-- A CCC code (spec/45_ccc_decoder.md R460). -/
def codeByte (c : Byte) (s : State) : Result :=
  match decode .ccc [c] with
  | .ok r => exec r.1 s
  | .error .undefinedCcc => .next (undefinedCode c s)
  | .error _ => .next (unsupportedCode c s)

/-- The target ignores the frame up to STOP: T_IGNORE with IGNSTOP = 1 (spec/44_target.md R424), or the T_DIRECT of an
undefined code (spec/45_ccc_decoder.md R477, spec/93_implementation_defined.md U13; log entry 46). -/
def ignoring (s : State) : Bool :=
  s.tgt.ignstop && (s.tgt.phase == .ignore || (s.tgt.phase == .direct && cccClass s.tgt.ccccur == .undefined))

/-- A data byte (spec/44_target.md R424, R429). -/
def byteTurn (b : Byte) (s : State) : Result :=
  match s.tgt.phase with
  | .ccc => codeByte b s
  | .cccData => cccStep id s
  | .directW => cccStep id s
  | .direct => if ignoring s then .next s else cccStep (definingByte b) s
  | .privW => .next (privWriteByte b s)
  | .ignore => .next s
  | .daa => .next s
  | .idle => .next (toIgnore (detect .te5 s))
  | .addr => .next (toIgnore (detect .te5 s))
  | .privR => .next (toIgnore (detect .te5 s))
  | .directR => .next (toIgnore (detect .te5 s))

/-- The reset pattern (spec/45_ccc_decoder.md R474). -/
def resetPattern (s : State) : State :=
  { notify .nRstAct { s with tgt.phase := .idle, tgt.ccccur := 0 } with tst.rstact := 0 }

/-- The target ignores all bus activity until STOP, after ENTHDR0-7 (spec/30_encoding.md R217; log entry 47). -/
def inHdr (s : State) : Bool :=
  s.tgt.phase == .ignore && s.tgt.ignstop && decide (0x20 ≤ s.tgt.ccccur.toNat) && decide (s.tgt.ccccur.toNat ≤ 0x27)

/-- The ENGINE step that takes a PHY event in target role (spec/44_target.md R424). -/
def targetEvent (e : PhyEvent) (s : State) : Result :=
  match e with
  | .start => if ignoring s then .next s else frameTurn .start s
  | .rstart => if ignoring s then .next s else frameTurn .rstart s
  | .stop => frameTurn .stop s
  | .addr a rnw => if s.tgt.phase = .addr then matchAddr a rnw s else .next (drive (.answer false) s)
  | .byte b => byteTurn b s
  | .daaSr => if s.tgt.phase = .daa then exec .entdaa s else .next s
  | .da _ => if s.tgt.phase = .daa then exec .entdaa s else .next s
  | .resetPattern => .next (if inHdr s then s else resetPattern s)
  | .wakeup => .next (if inHdr s then s else notify .nWakeup s)
  | .err k => .next (if eventKind k && !inHdr s then targetError k s else s)
  | .treq _ _ => .next s

/-! ## ENGINE -/

/-- The block's machines run (spec/44_target.md R424, spec/70_reset_and_hazards.md R623). -/
def running (s : State) : Bool := s.ctl.life != .reset && s.ctl.life != .init

/-- The ENGINE step of the role that MODE gives. -/
def roleStep (u : EngineUnit) (s : State) : Result :=
  match s.ctl.mode with
  | .none => .next s
  | .controller => controllerStep s
  | .target => targetStep u s

/-- From `s` to `t` a request was made that admits the error answer `k` (spec/00_scope.md R9, R10). -/
def gotError (k : ErrCode) (s t : State) : Bool :=
  (t.env.bus.take (t.env.bus.length - s.env.bus.length)).any fun o =>
    match o with
    | .req r => admits r (.err k)
    | _ => false

/-- The ENGINE step while ABORTREQ = 1 (spec/41_controller.md R293): the confirmation. Where the interrupted machine's next
request admits the error answer given, that error is raised first (R293, spec/60_exceptions.md R574; log entry 11). -/
def abortTurn (u : EngineUnit) (a : PhyAnswer) (s : State) : Result :=
  match a with
  | .err k =>
    match roleStep u s with
    | .next t => .next (abortConfirm (if gotError k s t then t else s))
    | _ => .next (abortConfirm s)
  | _ => .next (abortConfirm s)

/-- An ENGINE step with the PHY's answer to the request it makes. -/
def engineTurn (u : EngineUnit) (a : PhyAnswer) (s : State) : Result :=
  if s.ctl.abortreq then abortTurn u a s
  else if s.ctl.life = .reset then .next s
  else if s.ctl.life = .init then .next (initDone s)
  else roleStep u s

/-- An `ev_treq` waits: for the ENGINE step that ends INIT, or for the end of a frame or of a request in handling
(spec/46_events.md R520; log entry 15). -/
def requestWaits (s : State) : Bool := s.ctl.life == .init || s.seq.frame || s.work.request != .idle

/-- The next event: taken, lost, or left to a later turn. -/
def eventTurn (s : State) : Result :=
  if s.ctl.abortreq then .next (abortConfirm s)
  else
    match s.env.events with
    | [] => .next s
    | e :: rest =>
      let t := { s with env.events := rest, env.cue := .event e }
      match s.ctl.mode, e with
      | .none, _ => .next t
      | .controller, .treq a rnw =>
        if requestWaits s then .next s else .next (if running s then beginRequest a rnw t else t)
      | .controller, _ => .next t
      | .target, .byte b =>
        if !running s then .next t else if privWriteHolds s then .next s else targetEvent (.byte b) t
      | .target, e => if running s then targetEvent e t else .next t

/-! ## MOVER (spec/42_fifo.md R345) -/

/-- A START is in flight for the MOVER (R345). -/
def moverStart (s : State) : Bool :=
  pending opStart s && (s.ctl.life == .tx || s.ctl.life == .rx || s.ctl.life == .txrx || s.ctl.life == .abort)

/-- The MOVER is enabled (R345). -/
def moverEnabled (s : State) : Bool :=
  moverStart s || pending opTgtTx s || pending opTgtRx s || pending opIbiReq s

/-- The DMA engine's own error reaches an access only under strategy DMA (spec/00_scope.md R11). -/
def dmaFault (dmaErr : Bool) (s : State) : Bool := dmaErr && s.ctl.strat == .dma

/-- M1, control fetch (R345). -/
def moverM1 (dmaErr : Bool) (s : State) : State :=
  if moverStart s && s.cnt.ctrlrem != 0#16 && !cfifoFull s then
    match (if dmaFault dmaErr s then none else memRead s s.cnt.ctrlptr 4) with
    | none => raiseError .dma s
    | some bs =>
      { s with
        fifo.cfifo := s.fifo.cfifo ++ [wordOf bs]
        cnt.ctrlptr := byteAt s s.cnt.ctrlptr 4
        cnt.ctrlrem := s.cnt.ctrlrem - 1 }
  else s

/-- M2, tx fill (R345). -/
def moverM2 (dmaErr : Bool) (s : State) : State :=
  if moverEnabled s && s.cnt.txrem != 0#32 && txReq s then
    match (if dmaFault dmaErr s then none else memRead s s.cnt.txptr 1) with
    | none => raiseError .dma s
    | some bs =>
      { s with
        fifo.txfifo := s.fifo.txfifo ++ [fieldByte bs 0]
        cnt.txptr := byteAt s s.cnt.txptr 1
        cnt.txrem := s.cnt.txrem - 1 }
  else s

/-- M3, rx drain (R345). -/
def moverM3 (dmaErr : Bool) (s : State) : State :=
  if moverEnabled s && s.cnt.rxrem != 0#32 && rxReq s then
    match s.fifo.rxfifo with
    | [] => s
    | b :: r =>
      match (if dmaFault dmaErr s then none else memWrite s s.cnt.rxptr [b]) with
      | none => raiseError .dma s
      | some t =>
        { t with fifo.rxfifo := r, cnt.rxptr := byteAt s s.cnt.rxptr 1, cnt.rxrem := s.cnt.rxrem - 1 }
  else s

/-- One MOVER step (R345): a control word or a data byte. No action moves a status word: log entry 37. -/
def moverTurn (m : MoverAction) (dmaErr : Bool) (s : State) : State :=
  match m with
  | .m1 => moverM1 dmaErr s
  | .m2 => moverM2 dmaErr s
  | .m3 => moverM3 dmaErr s

/-! ## ENV and the turns -/

/-- The ENV event `timeout` (spec/41_controller.md R297). -/
def timeoutTurn (s : State) : State :=
  if s.ctl.cmdp && s.ctl.tmo && !s.ctl.abortreq then timeoutHalt s else s

/-- What the ENGINE is given this turn. -/
def setCue (c : Cue) (s : State) : State := { s with env.cue := c }

/-- One turn of one agent (spec/00_scope.md R8). -/
def runTurn (t : Turn) (s : State) : Result :=
  match t with
  | .host a => hostTurn a s
  | .hostMem a b => .next (hostMemTurn a b s)
  | .engine u a => engineTurn u a (setCue (.answer a) s)
  | .event => eventTurn s
  | .mover m dmaErr => .next (moverTurn m dmaErr s)
  | .timeout => .next (timeoutTurn s)
  | .powerOn => .next (resetBlock s)

/-- The agenda's next turn is taken off and run; with none, nothing happens. -/
def nextTurn (s : State) : Result :=
  match s.env.agenda with
  | [] => .next s
  | t :: r => runTurn t { s with env.agenda := r }

/-! ## Placing an instruction -/

/-- A turn put before all others. -/
def firstTurn (t : Turn) (s : State) : State := { s with env.agenda := t :: s.env.agenda }

/-- A CCC code is the next event, and the target path expects a code. -/
def placeCcc (c : Byte) (s : State) : State :=
  firstTurn .event
    { s with
      ctl.mode := .target
      ctl.life := if running s then s.ctl.life else .idle
      ctl.abortreq := false
      tgt.phase := .ccc
      env.events := .byte c :: s.env.events }

/-- A control word is at the head of CFIFO of a START in flight, and the sequencer fetches; a DIRECT word follows its CCC
word in an open frame. -/
def placeControl (w : Word) (s : State) : State :=
  let direct := bitField w 27 4 == 4#4
  firstTurn (.engine .main .ok)
    { s with
      ctl.mode := .controller
      ctl.life := .tx
      ctl.cmdp := true
      ctl.pendop := opStart
      ctl.abortreq := false
      ctl.suspended := false
      work.request := .idle
      seq.phase := .fetch
      seq.ccchdr := direct
      seq.frame := direct
      fifo.cfifo := w :: s.fifo.cfifo }

/-- A write of CMD is the next host access. -/
def placeCommand (w : Word) (s : State) : State := firstTurn (.host (.write 0#8 4 w)) s

/-- A row's word, placed where the next step takes its instruction. -/
def placeTableWord (nbits w : Nat) (s : State) : State :=
  match tableSpace nbits w with
  | .ccc => placeCcc (BitVec.ofNat 8 w) s
  | .control => placeControl (BitVec.ofNat 32 w) s
  | .command => placeCommand (BitVec.ofNat 32 w) s

end Sys2Proof.Machine
end

