-- ==== Sys2Proof/Safety.lean ====
section
/-! DEFINITION. What counts as a safe state of the machine, in the terms the statements use: the invariants that every step is
to keep, and the shape of a state a statement speaks about. -/

namespace Sys2Proof.Machine

/-! ## Invariants -/

/-- System memory is in its canonical form (log entry 4). -/
def MemoryOk (s : State) : Prop := Memory.wf s.env.params.addrW s.mem = true

/-- The pointers into system memory are addresses of `P_ADDR_W` bits (spec/10_state.md R60, R75, R80, R82). -/
def PointersOk (s : State) : Prop :=
  s.cnt.ctrlptr < 2 ^ s.env.params.addrW ∧ s.cnt.txptr < 2 ^ s.env.params.addrW ∧
    s.cnt.rxptr < 2 ^ s.env.params.addrW ∧ s.cnt.ctxaddr < 2 ^ s.env.params.addrW ∧
    s.daa.ptr < 2 ^ s.env.params.addrW ∧ s.snap.nbufptr < 2 ^ s.env.params.addrW

/-- MODE, STATE, CMDP, ABORTREQ and TMO agree (spec/10_state.md R42, R43, R46, R49; spec/41_controller.md R281): NONE is
the mode of RESET alone, a command is pending in every state but RESET and IDLE, an abort exactly in ABORT, and only a
command of strategy POLL can time out. -/
def LifecycleOk (s : State) : Prop :=
  (s.ctl.mode = .none ↔ s.ctl.life = .reset) ∧
    (s.ctl.cmdp = true ↔ s.ctl.life ≠ .reset ∧ s.ctl.life ≠ .idle) ∧
    (s.ctl.abortreq = true ↔ s.ctl.life = .abort) ∧
    (s.ctl.tmo = true → s.ctl.cmdp = true ∧ s.ctl.strat = .poll)

/-- LISTEN is 1 exactly when MODE = TARGET and some target-side notification is enabled (spec/10_state.md R45). -/
def ListenOk (s : State) : Prop :=
  s.ctl.listen = true ↔ s.ctl.mode = .target ∧ s.rep.noten &&& 0x07FF0000#32 ≠ 0#32

/-- The addresses held as valid are valid dynamic addresses (spec/10_state.md R64, R71; spec/30_encoding.md R230). -/
def AddressesOk (s : State) : Prop :=
  (s.cfg.dav = true → validDa s.cfg.da = true) ∧ ∀ i : Fin 4, s.cfg.bdt[i].v = true → validDa s.cfg.bdt[i].da = true

/-- The reserved bits of ISR, IER and NOTEN are 0 (spec/10_state.md R54, spec/30_encoding.md R205). -/
def ReservedOk (s : State) : Prop :=
  s.rep.isr &&& ~~~0x07FF03FF#32 = 0#32 ∧ s.rep.ier &&& ~~~0x07FF03FF#32 = 0#32 ∧
    s.rep.noten &&& ~~~0x07FF03FF#32 = 0#32

/-- No FIFO holds more than its depth, CCCBUF no more than eight bytes (spec/10_state.md R61, R78). -/
def CapacityOk (s : State) : Prop :=
  s.fifo.cfifo.length ≤ s.env.params.cfifoDepth ∧ s.fifo.sfifo.length ≤ s.env.params.sfifoDepth ∧
    s.fifo.txfifo.length ≤ s.env.params.txfifoDepth ∧ s.fifo.rxfifo.length ≤ s.env.params.rxfifoDepth ∧
    s.tgt.cccbuf.length ≤ 8

/-! ## What a statement supposes -/

/-- The ENGINE step in progress is given the answer `a`. -/
def Answered (a : PhyAnswer) (s : State) : Prop := s.env.cue = .answer a

/-- The ENGINE step in progress takes the event `e`. -/
def Takes (e : PhyEvent) (s : State) : Prop := s.env.cue = .event e

/-- The checks 1 to 3 of a class-L command that needs mode `m` pass (spec/41_controller.md R281). -/
def Ready (m : Mode) (s : State) : Prop := s.ctl.mode = m ∧ s.ctl.cmdp = false ∧ s.ctl.life = .idle

/-- The strategy is one the command accepts, and DMA only where it is supported (spec/41_controller.md R281, check 5). -/
def StratOk (allowed : List Strat) (st : Strat) (s : State) : Prop :=
  st ∈ allowed ∧ (st = .dma → s.env.params.dma = true)

/-- The sequencer executes a START, in phase `p`, and is not suspended. -/
def Sequencing (p : SeqPhase) (s : State) : Prop := s.seq.phase = p ∧ s.ctl.suspended = false

/-- Every byte of a block of `n` bytes can be written. -/
def WritableBlock (s : State) (a n : Nat) : Prop := ∀ k, k < n → writable s (byteAt s a k) = true

/-- The address is none of the `n` bytes at `a`. -/
def Outside (s : State) (a n c : Nat) : Prop := ∀ k, k < n → c ≠ byteAt s a k

/-- The little-endian word at an address of a memory, with the addresses of the state `s`. -/
def wordAt (s : State) (m : Memory) (a : Nat) : Word :=
  le32 (Memory.read m (byteAt s a 0)) (Memory.read m (byteAt s a 1)) (Memory.read m (byteAt s a 2))
    (Memory.read m (byteAt s a 3))

/-! ## What a statement says a command or a request has done -/

/-- A rejected class-L command: RESULT holds the code, nothing else is changed (spec/00_scope.md R17). -/
def rejectedWith (c : BitVec 4) (s : State) : State := { s with rep.code := c, rep.aux := 0, rep.reserr := 0 }

/-- An accepted class-L command, before its own acceptance actions (spec/41_controller.md R281; the fields of `work` are the
model's, log entry 9). A target request in handling goes on (log entry 39). -/
def acceptedAs (op : Byte) (st : Strat) (timeoutFlag : Word) (s : State) : State :=
  { s with
    ctl.cmdp := true
    ctl.pendop := op
    ctl.strat := st
    ctl.tmo := decide (st = .poll) && decide (timeoutFlag ≠ 0)
    rep.callerr := 0
    work.micro := .start
    work.rxHold := none }

/-- An ended class-L command: STATE is IDLE, an interrupt flag is set, RESULT and RESERR report (spec/41_controller.md
R283). -/
def endedWith (isrBit : Nat) (c : BitVec 4) (aux : BitVec 16) (s : State) : State :=
  { s with
    ctl.life := .idle
    ctl.cmdp := false
    ctl.tmo := false
    rep.isr := s.rep.isr ||| 1#32 <<< isrBit
    rep.code := c
    rep.aux := aux
    rep.reserr := s.rep.callerr }

/-- The block has driven a request towards the PHY. -/
def driven (r : PhyReq) (s : State) : State := { s with env.bus := .req r :: s.env.bus }

end Sys2Proof.Machine
end

