-- ==== Sys2Proof/WellFormed.lean ====
section
/-! DEFINITION. Which instructions are well-formed: the strategies a command accepts (spec/30_encoding.md R171), the
sub-arguments its rule allows, the legal mode bytes (R177, R178), and the control words the sequencer takes in some
frame (spec/41_controller.md R291). An instruction that is not well-formed still has a meaning: the rejection or the
error that its rule gives. -/

namespace Sys2Proof

/-- The strategies a command accepts (spec/30_encoding.md R171; the classes P and I ignore the field). -/
def Strat.among (allowed : List Strat) (st : Strat) : Bool := allowed.contains st

/-- The well-formed instructions. -/
def Instr.wellFormed : Instr → Bool
  | .ctxReset _ _ => true
  | .ctxBind _ sub => decide (sub.toNat ≤ 2)
  | .buildPrivate _ sub => modeLegal sub && !(msgClassOf sub).isCcc
  | .buildCcc _ sub => modeLegal sub && (msgClassOf sub).isCcc
  | .decodePayload _ _ => true
  | .init st sub => st.among [.poll] && (sub == 1#8 || sub == 2#8)
  | .deinit _ _ => true
  | .start _ _ => true
  | .abort _ _ => true
  | .daa st sub => st.among [.poll, .irq] && decide (sub.toNat ≤ 1)
  | .setdasa st _ => st.among [.poll, .irq]
  | .probe st sub => st.among [.poll] && decide (sub.toNat ≤ 1)
  | .busRecover st _ => st.among [.poll]
  | .tgtTx _ _ => true
  | .tgtRx _ _ => true
  | .hjReq st _ => st.among [.poll, .irq]
  | .crReq st _ => st.among [.poll, .irq]
  | .ibiReq st _ => st.among [.poll, .irq]
  | .notifyActivate _ _ => true
  | .notifyDeactivate _ _ => true
  | .getCccInfo _ _ => true
  | .cwCcc mend arb code _ => !arb && !(mend && decide (128 ≤ code.toNat))
  | .cwPriv _ _ _ _ _ => true
  | .cwI2c _ _ _ _ _ => true
  | .cwDirect _ arb _ _ _ => !arb
  | .enecB => true
  | .disecB => true
  | .entas0B => true
  | .entas1B => true
  | .entas2B => true
  | .entas3B => true
  | .rstdaaB => true
  | .entdaa => true
  | .deftgts => true
  | .setmwlB => true
  | .setmrlB => true
  | .rstactB => true
  | .defgrpa => true
  | .enecD => true
  | .disecD => true
  | .entas0D => true
  | .entas1D => true
  | .entas2D => true
  | .entas3D => true
  | .rstdaaD => true
  | .setdasaCcc => true
  | .setnewda => true
  | .setmwlD => true
  | .setmrlD => true
  | .getmwl => true
  | .getmrl => true
  | .getpid => true
  | .getbcr => true
  | .getdcr => true
  | .getstatus => true
  | .getacccr => true
  | .rstactD => true
  | .enthdr _ => true

end Sys2Proof
end

