-- ==== Sys2Proof/Certificates/Slice0/Obligations.lean ====
section
/-! DEFINITION. The statements for the provers. Where a statement names an operation of the model (`raiseError`, `notify`,
`frameEvent`, ...), another statement of this file says what that operation does. -/

open Sys2Proof Sys2Proof.Machine

/-! ## Encoding -/

/-- The decoder reads back what the encoder writes, for every instruction with every operand, whatever bytes follow: no bit
of an encoding is dropped (spec/30_encoding.md R170, R171, R180, R181, R182, R215). -/
def Obligations.DecodeEncode : Prop :=
  ∀ (i : Instr) (rest : List Byte), decode i.space (encode i ++ rest) = .ok (i, rest)

/-- What the decoder accepts is the encoding of what it answers: every accepted word has one meaning, and no reserved bit
is ignored (spec/30_encoding.md R170, R180, R181, R215, R217). -/
def Obligations.EncodeDecode : Prop :=
  ∀ (sp : Space) (bs rest : List Byte) (i : Instr), decode sp bs = .ok (i, rest) → i.space = sp ∧ bs = encode i ++ rest

/-- A few words written out from the spec's encodings and examples decode to the instruction they stand for
(spec/30_encoding.md R170, R180, R215; spec/40_builder.md R244, R246; spec/41_controller.md R303). -/
def Obligations.WrittenWordsDecode : Prop :=
  decodeTableWord 32 0x00010010 = some (.init .poll 0x01) ∧
    decodeTableWord 32 0x00000120 = some (.start .irq 0x00) ∧
    decodeTableWord 32 0x00020002 = some (.ctxBind .poll 0x02) ∧
    decodeTableWord 32 0x00000230 = some (.tgtTx .dma 0x00) ∧
    decodeTableWord 32 0x90100004 = some (.cwPriv true false 0x08 false 4) ∧
    decodeTableWord 32 0x88000001 = some (.cwCcc true false 0x00 1) ∧
    decodeTableWord 32 0x088D0000 = some (.cwCcc false false 0x8D 0) ∧
    decodeTableWord 32 0xA0610006 = some (.cwDirect true false 0x30 true 6) ∧
    decodeTableWord 32 0x98A10002 = some (.cwI2c true false 0x50 true 2) ∧
    decodeTableWord 8 0x8A = some .setmrlD ∧ decodeTableWord 8 0x25 = some (.enthdr 5) ∧
    decodeTableWord 8 0x0B = none ∧ decodeTableWord 8 0x1F = none

/-- A write of CMD with a nonzero reserved field, STRAT = 3 or an OP outside the table is rejected with INVALID_PARAM into
PRESULT and does nothing else (spec/30_encoding.md R170, R171). -/
def Obligations.ReservedCommandsRejected : Prop :=
  ∀ (w : Word) (s : State),
    (bitField w 10 6 ≠ 0#6 ∨ bitField w 24 8 ≠ 0#8 ∨ bitField w 8 2 = 3#2 ∨
        (bitField w 0 8).toNat ∉ [0x01, 0x02, 0x03, 0x04, 0x05, 0x10, 0x11, 0x20, 0x21, 0x22, 0x23, 0x24, 0x25, 0x30,
          0x31, 0x32, 0x33, 0x34, 0x40, 0x41, 0x42]) →
      hostTurn (.write 0x00 4 w) s = .next { s with rep.pcode := 3 }

/-! ## Steps -/

/-- What a turn runs. A host write of CMD runs the command the word decodes to, in the state without that turn
(spec/30_encoding.md R170). A host access, a MOVER action, the ENV timeout (when the pending command may time out and no abort
is requested) and an ENGINE turn run the operation of that agent; the ENGINE step in controller role handles a target request
first, then DAA, then the pending START, SETDASA, PROBE or BUS_RECOVER; in target role its unit makes the target request; an
event is taken in target role unless it is a byte of a private write for a full RXFIFO; in controller role `ev_treq` is taken
while no frame is open, it waits for the end of INIT, and the operation it interrupts keeps its place (spec/00_scope.md R8;
spec/46_events.md R520). A power-on reset resets every element of the block; a byte that the environment writes changes that
byte of memory alone. A host access that is not 32 bits wide at a multiple of 4, and every step under a parameter set that is
not legal, is refused (spec/20_memory.md R131; spec/00_scope.md R14). The turns are the model's: log entry 1; which machine
moves, log entry 28; the waiting events, log entry 15. -/
def Obligations.StepRunsCommand : Prop :=
  ∀ (s : State) (turns : List Turn),
    let depths := [s.env.params.cfifoDepth, s.env.params.sfifoDepth, s.env.params.txfifoDepth, s.env.params.rxfifoDepth]
    let legal := (∀ d ∈ depths, 1 ≤ d ∧ d ≤ 65535) ∧ s.env.params.ibiMax ≤ 4 ∧ s.env.params.bdtEntries = 4
    let t := { s with env.agenda := turns }
    let runs := s.ctl.abortreq = false ∧ s.ctl.life ≠ .reset ∧ s.ctl.life ≠ .init
    (¬legal → step s = .refused .illegalParameters) ∧
    (legal →
    (s.env.agenda = .powerOn :: turns →
        step s =
          .next
            { State.reset with
              mem := s.mem
              env := t.env
              work.dmaEngine := s.work.dmaEngine
              work.draws := s.work.draws }) ∧
      (∀ (a : Nat) (b : Byte), s.env.agenda = .hostMem a b :: turns →
        step s = .next { t with mem := Memory.write s.mem (byteAt s a 0) b }) ∧
      (∀ (off : Byte) (width : Nat) (v : Word), width ≠ 4 ∨ off.toNat % 4 ≠ 0 →
        s.env.agenda = .host (.read off width) :: turns ∨ s.env.agenda = .host (.write off width v) :: turns →
          step s = .refused .hostAccessShape) ∧
      (∀ (w : Word) (i : Instr) (r : List Byte), s.env.agenda = .host (.write 0x00 4 w) :: turns →
        decode .command (bytes32 w) = .ok (i, r) → step s = exec i t) ∧
      (∀ x : HostAccess, s.env.agenda = .host x :: turns → step s = hostTurn x t) ∧
      (∀ (m : MoverAction) (d : Bool), s.env.agenda = .mover m d :: turns → step s = .next (moverTurn m d t)) ∧
      (s.env.agenda = .timeout :: turns →
        step s =
          .next (if s.ctl.cmdp = true ∧ s.ctl.tmo = true ∧ s.ctl.abortreq = false then timeoutHalt t else t)) ∧
      (∀ (u : EngineUnit) (a : PhyAnswer), s.env.agenda = .engine u a :: turns →
        let c := { t with env.cue := .answer a }
        step s = engineTurn u a c ∧
          (runs → s.ctl.mode = .controller →
            step s = controllerStep c ∧ (s.work.request ≠ .idle → step s = .next (requestStep c)) ∧
              (s.work.request = .idle →
                (s.ctl.life = .daa → step s = .next (daaStep c)) ∧
                  (s.ctl.life ≠ .daa → s.ctl.cmdp = true →
                    (s.ctl.pendop = 0x23 → step s = .next (setdasaStep c)) ∧
                      (s.ctl.pendop = 0x24 → step s = .next (probeStep c)) ∧
                      (s.ctl.pendop = 0x25 → step s = .next (recoverStep c))))) ∧
          (runs → s.ctl.mode = .target →
            step s = targetStep u c ∧ (u = .request → step s = .next (targetRequestStep c)))) ∧
      (∀ (e : PhyEvent) (es : List PhyEvent), s.env.agenda = .event :: turns → s.env.events = e :: es → runs →
        let c := { t with env.events := es, env.cue := .event e }
        let lim : Nat := if s.cfg.mwl = 0 then s.tgt.tgtlen.toNat else min s.tgt.tgtlen.toNat s.cfg.mwl.toNat
        let holds :=
          (∃ b, e = .byte b) ∧ s.tgt.phase = .privW ∧ s.env.params.rxfifoDepth ≤ s.fifo.rxfifo.length ∧
            s.cnt.datacnt.toNat ≠ lim
        (s.ctl.mode = .target → ¬holds → step s = targetEvent e c) ∧ (s.ctl.mode = .target → holds → step s = .next t) ∧
          ∀ a w, s.ctl.mode = .controller → e = .treq a w →
            (s.seq.frame = false → s.work.request = .idle →
                step s = .next { c with seq.frame := true, work.request := .ack a w }) ∧
              (s.seq.frame = true ∨ s.work.request ≠ .idle → step s = .next t)) ∧
      (∀ (a : Addr7) (w : Bool) (es : List PhyEvent), s.env.agenda = .event :: turns → s.env.events = .treq a w :: es →
        s.ctl.mode = .controller → s.ctl.abortreq = false → s.ctl.life = .init → step s = .next t))

/-- A START is in flight in controller role, no abort is pending and no target request is being handled; an ENGINE turn
runs the word at the head of CFIFO in S_FETCH and the word in CUR in the later phases (spec/41_controller.md R280,
R285). The turns are the model's: log entry 1. -/
def Obligations.StepRunsControlWord : Prop :=
  ∀ (s : State) (u : EngineUnit) (a : PhyAnswer) (turns : List Turn) (w : Word) (ws : List Word) (i : Instr)
    (r : List Byte),
    s.env.params.legal = true → s.env.agenda = .engine u a :: turns → s.ctl.mode = .controller →
      s.ctl.abortreq = false → (s.ctl.life = .tx ∨ s.ctl.life = .rx ∨ s.ctl.life = .txrx) → s.work.request = .idle →
        s.ctl.cmdp = true → s.ctl.pendop = 0x20 → decode .control (bytes32 w) = .ok (i, r) →
          (Sequencing .fetch s → s.fifo.cfifo = w :: ws →
              step s = exec i { s with env.agenda := turns, env.cue := .answer a }) ∧
            ((s.seq.phase = .addr ∨ s.seq.phase = .data ∨ s.seq.phase = .fin) → s.seq.cur = w →
              step s = exec i { s with env.agenda := turns, env.cue := .answer a })

/-- In target role with no abort pending, a turn that takes an event runs: a received CCC code as that CCC; the CCC in
force (CCCCUR) for its data bytes, for the frame event that ends its data, for its defining byte and for an own address
under a direct CCC; ENTDAA for the events of an assignment this target takes part in; and an ENGINE turn drives a
response byte of the CCC in force (spec/44_target.md R424, R427; spec/45_ccc_decoder.md R460–R463, R468, R479). The
turns are the model's: log entry 1; that START ends CCC data: log entry 31. -/
def Obligations.StepRunsCcc : Prop :=
  ∀ (s : State) (turns : List Turn) (i : Instr),
    s.env.params.legal = true → s.ctl.mode = .target → s.ctl.abortreq = false → s.ctl.life ≠ .reset →
      s.ctl.life ≠ .init →
        (∀ (c : Byte) (es : List PhyEvent), s.env.agenda = .event :: turns → s.env.events = .byte c :: es →
            s.tgt.phase = .ccc → decode .ccc [c] = .ok (i, []) →
              step s = exec i { s with env.agenda := turns, env.events := es, env.cue := .event (.byte c) }) ∧
          (∀ (e : PhyEvent) (es : List PhyEvent), s.env.agenda = .event :: turns → s.env.events = e :: es →
            decode .ccc [s.tgt.ccccur] = .ok (i, []) →
              ((s.tgt.phase = .cccData ∨ s.tgt.phase = .directW) ∧
                    ((∃ b, e = .byte b) ∨ e = .start ∨ e = .rstart ∨ e = .stop) ∨
                  (s.tgt.phase = .direct ∧ ∃ b, e = .byte b) ∨
                  (s.tgt.phase = .addr ∧ 0x80 ≤ s.tgt.ccccur.toNat ∧
                    ∃ a rnw, e = .addr a rnw ∧ own s a = true ∧ a ≠ 0x7E ∧ te0Addr a = false)) →
                step s = exec i { s with env.agenda := turns, env.events := es, env.cue := .event e }) ∧
          (∀ (e : PhyEvent) (es : List PhyEvent), s.env.agenda = .event :: turns → s.env.events = e :: es →
            s.tgt.phase = .daa → (e = .daaSr ∨ ∃ a, e = .da a) →
              step s = exec .entdaa { s with env.agenda := turns, env.events := es, env.cue := .event e }) ∧
          (∀ a : PhyAnswer, s.env.agenda = .engine .drive a :: turns → s.tgt.phase = .directR →
            decode .ccc [s.tgt.ccccur] = .ok (i, []) →
              step s = exec i { s with env.agenda := turns, env.cue := .answer a })

/-! ## Invariants of every step -/

/-- Every step keeps system memory in its canonical form (log entry 4), and every pointer into it an address of `P_ADDR_W`
bits (spec/10_state.md R60, R75, R80, R82; log entry 6). -/
def Obligations.StepKeepsMemory : Prop :=
  ∀ s t : State, step s = .next t → (MemoryOk s → MemoryOk t) ∧ (PointersOk s → PointersOk t)

/-- Every step keeps MODE, STATE, CMDP, ABORTREQ and TMO in agreement (spec/10_state.md R42, R43, R44, R46, R49;
spec/41_controller.md R281, R283, R292, R293; spec/60_exceptions.md R570, R574). -/
def Obligations.StepKeepsLifecycle : Prop := ∀ s t : State, LifecycleOk s → step s = .next t → LifecycleOk t

/-- Every step keeps LISTEN equal to what spec/10_state.md R45 says it is, through every change of MODE and NOTEN. -/
def Obligations.StepKeepsListen : Prop := ∀ s t : State, ListenOk s → step s = .next t → ListenOk t

/-- Every step keeps the own dynamic address and every Bus Device Table entry valid where they are marked valid
(spec/10_state.md R64, R71; spec/30_encoding.md R230; spec/45_ccc_decoder.md R468, R469, R472). -/
def Obligations.StepKeepsAddresses : Prop := ∀ s t : State, AddressesOk s → step s = .next t → AddressesOk t

/-- Every step keeps the reserved bits of ISR, IER and NOTEN at 0 (spec/10_state.md R54, R55, R58; spec/30_encoding.md
R205). -/
def Obligations.StepKeepsReserved : Prop := ∀ s t : State, ReservedOk s → step s = .next t → ReservedOk t

/-- No step makes a FIFO hold more than its depth or CCCBUF more than eight bytes (spec/10_state.md R61, R78). -/
def Obligations.StepKeepsCapacity : Prop := ∀ s t : State, CapacityOk s → step s = .next t → CapacityOk t

/-- The state after power-on meets the invariants and holds the values of spec/70_reset_and_hazards.md R620 that are
not 0; STATUS, ISR, RESULT and FIFOREQ read 0 (R620, R621). -/
def Obligations.ResetInvariants : Prop :=
  MemoryOk State.reset ∧ PointersOk State.reset ∧ LifecycleOk State.reset ∧ ListenOk State.reset ∧
    AddressesOk State.reset ∧ ReservedOk State.reset ∧ CapacityOk State.reset ∧ State.reset.ctl.mode = .none ∧
    State.reset.ctl.life = .reset ∧ State.reset.cfg.daabase = 0x08 ∧ tgtstateWord State.reset = 0x1C ∧
    statusWord State.reset = 0 ∧ State.reset.rep.isr = 0 ∧ resultWord State.reset = 0 ∧ fifoReqWord State.reset = 0

/-! ## Latch, notification, error, abort, timeout -/

/-- `notify(id)`: with NOTEN[id] = 0 nothing happens; with NOTEN[id] = 1 flag id is set, a target id (16..26, `i` = id − 16)
first captures the present values in its slot, overwriting it, a controller id captures nothing; and IRQ is raised when
IER[id] = 1 (spec/46_events.md R542, R545). Every flag has the bit number of the table of spec/30_encoding.md R205. -/
def Obligations.NotifyRule : Prop :=
  ∀ (f : Flag) (s : State),
    let table : List (Flag × Nat) :=
      [(.xferDone, 0), (.err, 1), (.abortDone, 2), (.daaDev, 3), (.daaDone, 4), (.ibi, 5), (.crreq, 6), (.hj, 7),
        (.tgtDone, 8), (.treqDone, 9), (.nGetacccr, 16), (.nIbiEnd, 17), (.nDaUpd, 18), (.nGet, 19), (.nGetStatus, 20),
        (.nMaxLen, 21), (.nRstAct, 22), (.nActState, 23), (.nEvent, 24), (.nWakeup, 25), (.nDefList, 26)]
    (f, flagIndex f) ∈ table ∧ flag f s = { s with rep.isr := s.rep.isr ||| 1#32 <<< flagIndex f } ∧
    (s.rep.noten.getLsbD (flagIndex f) = false → notify f s = s) ∧
      (s.rep.noten.getLsbD (flagIndex f) = true →
        (∀ i : Fin 11, flagIndex f = 16 + i.val →
            notify f s =
              { s with
                rep.isr := s.rep.isr ||| 1#32 <<< flagIndex f
                snap.slots :=
                  s.snap.slots.set i
                    { pend := true, da := s.cfg.da, dav := s.cfg.dav, mwl := s.cfg.mwl, mrl := s.cfg.mrl,
                      rstact := s.tst.rstact, act := s.tst.act, enint := s.tst.enint, encr := s.tst.encr,
                      enhj := s.tst.enhj } }) ∧
          (flagIndex f < 16 → notify f s = { s with rep.isr := s.rep.isr ||| 1#32 <<< flagIndex f }) ∧
          (s.rep.ier.getLsbD (flagIndex f) = true → irq (notify f s) = true))

/-- Errors. Latching alone: the code enters ERR (with error tracking) and, with a command pending, CALLERR, and ERR is
flagged; a target-side detection sets PERR too. `raise Error({e})` latches and flags in the same way; CE1 in controller role
sets RECOV; an open controller frame ends, with STOP unless the error is CE1; the target path ignores the bus; FIFOs and
counters are flushed and the machines go idle; a target request in handling is dropped (log entry 51); what
spec/60_exceptions.md R571 lists keeps its value. With a command pending and no abort, STATE is then IDLE, RESULT is
PROTOCOL_ERROR with the command's count, RESERR holds CALLERR, and a target request flags TREQ_DONE (log entry 44); with no
command pending nothing ends. `ev_err(k)` sets PERR; it raises Error({k}) where it belongs to a pending target command, else
it is latched and flagged and the target ignores the bus until the next Sr or STOP (R566, R567, R570, R573, R575). The bit of
every code is its number in the table of R560. -/
def Obligations.RaiseErrorRule : Prop :=
  ∀ (e : ErrCode) (s : State),
    let table : List (ErrCode × Nat) :=
      [(.ce0, 0), (.ce1, 1), (.ce2, 2), (.ce3, 3), (.te0, 4), (.te1, 5), (.te2, 6), (.te3, 7), (.te4, 8), (.te5, 9),
        (.te6, 10), (.stall, 11), (.covr, 12), (.dovr, 13), (.anack, 14), (.dnack, 15), (.derr, 16), (.dma, 17),
        (.dynaddr, 18)]
    let err := if s.env.params.errTrack then s.rep.err ||| 1#19 <<< errIndex e else s.rep.err
    let t := raiseError e s
    let p := { s with tst.perr := true }
    let mine :=
      s.ctl.cmdp = true ∧
        ((s.ctl.pendop = 0x31 ∧ s.tgt.phase = .privW) ∨ (s.ctl.pendop = 0x30 ∧ s.tgt.phase = .privR) ∨
          (s.ctl.pendop = 0x34 ∧ s.tgt.trq = .ibiData) ∨
          (s.ctl.pendop = 0x32 ∧ s.tgt.trq = .hjWaitDaa ∧ s.tgt.phase = .daa) ∨
          (s.ctl.pendop = 0x33 ∧ s.tgt.trq ≠ .none))
    (e, errIndex e) ∈ table ∧
    (latchFlag e s =
        { s with
          rep.err := err
          rep.callerr := if s.ctl.cmdp then s.rep.callerr ||| 1#19 <<< errIndex e else s.rep.callerr
          rep.isr := s.rep.isr ||| 2#32 } ∧
      detect e s = { latchFlag e s with tst.perr := true }) ∧
    (mine → targetError e s = raiseError e p) ∧
    (¬mine → targetError e s = { latchFlag e p with tgt.phase := .ignore, tgt.ignstop := false }) ∧
    (s.ctl.cmdp = true → s.ctl.abortreq = false →
      t.rep =
          { s.rep with
            err := err
            callerr := s.rep.callerr ||| 1#19 <<< errIndex e
            reserr := s.rep.callerr ||| 1#19 <<< errIndex e
            isr :=
              s.rep.isr ||| 2#32 |||
                (if s.ctl.pendop = 0x32 ∨ s.ctl.pendop = 0x33 ∨ s.ctl.pendop = 0x34 then 0x200#32 else 0#32)
            code := 4
            aux :=
              if s.ctl.pendop = 0x20 then s.cnt.msgcnt
              else if s.ctl.pendop = 0x22 then s.daa.cnt.setWidth 16
              else if s.ctl.pendop = 0x30 ∨ s.ctl.pendop = 0x31 ∨ s.ctl.pendop = 0x34 then bitField s.cnt.datacnt 0 16
              else 0 } ∧
        t.ctl =
          { s.ctl with
            life := .idle
            cmdp := false
            tmo := false
            suspended := false
            recov := s.ctl.recov || (decide (e = .ce1) && decide (s.ctl.mode = .controller)) }) ∧
    (s.ctl.cmdp = false →
      t.rep = { s.rep with err := err, isr := s.rep.isr ||| 2#32 } ∧
        t.ctl =
          { s.ctl with
            suspended := false
            recov := s.ctl.recov || (decide (e = .ce1) && decide (s.ctl.mode = .controller)) }) ∧
    t.env.bus =
      (if s.ctl.mode = .controller ∧ s.seq.frame = true ∧ e ≠ .ce1 then .req .stop :: s.env.bus else s.env.bus) ∧
    (s.ctl.mode = .controller → t.seq.frame = false ∧ t.tgt.phase = s.tgt.phase) ∧
    (s.ctl.mode = .target → t.tgt.phase = .ignore ∧ t.tgt.ignstop = false ∧ t.seq.frame = s.seq.frame) ∧
    t.fifo = { cfifo := [], sfifo := [], txfifo := [], rxfifo := [] } ∧
    t.cnt = { s.cnt with ctrlrem := 0, txrem := 0, rxrem := 0 } ∧
    t.seq.phase = .idle ∧ t.daa = { s.daa with phase := .idle } ∧ t.tgt.trq = .none ∧ t.seq.ccchdr = false ∧
    t.seq.handover = false ∧ t.tgt.tgtend = false ∧ t.work.request = .idle ∧
    t.cfg = s.cfg ∧ t.tst = s.tst ∧ t.ibi = s.ibi ∧ t.dec = s.dec ∧ t.snap = s.snap ∧ t.arg = s.arg ∧ t.mem = s.mem

/-- An error while an abort is pending is latched and flagged and halts the transfer, but neither finishes the command nor
changes STATE; the next ENGINE step, whatever the PHY's answer, is the abort confirmation, which puts STATE to IDLE, flags
ABORT_DONE, finishes with ABORTED, and RESERR holds the error's bit (spec/60_exceptions.md R574, spec/41_controller.md R293). -/
def Obligations.ErrorUnderAbort : Prop :=
  ∀ (e : ErrCode) (s : State), s.ctl.cmdp = true → s.ctl.abortreq = true →
    let t := raiseError e s
    let u := abortConfirm t
    t.ctl.life = s.ctl.life ∧ t.ctl.cmdp = true ∧ t.ctl.abortreq = true ∧ t.rep.code = s.rep.code ∧
      t.rep.aux = s.rep.aux ∧ t.rep.reserr = s.rep.reserr ∧ t.rep.isr = s.rep.isr ||| 2#32 ∧
      t.rep.callerr = s.rep.callerr ||| 1#19 <<< errIndex e ∧ t.seq.phase = .idle ∧
      t.fifo = { cfifo := [], sfifo := [], txfifo := [], rxfifo := [] } ∧
      u.ctl.life = .idle ∧ u.ctl.cmdp = false ∧ u.ctl.abortreq = false ∧ u.rep.code = 7 ∧
      u.rep.isr = t.rep.isr ||| 4#32 ∧ u.rep.reserr = s.rep.callerr ||| 1#19 <<< errIndex e ∧
      ∀ (q : EngineUnit) (a : PhyAnswer), engineTurn q a t = .next u

/-- The abort confirmation and the timeout share one halt: an open controller frame ends with STOP, the target path goes idle,
FIFOs and counters are flushed, the sequencer and the target request go idle, and RESULT.AUX is the count the command reports
(MSGCNT, DAACNT, DATACNT or 0). The confirmation then flags ABORT_DONE and finishes with ABORTED; the timeout finishes with
TIMEOUT, flags nothing but TREQ_DONE of a target request (log entry 44) and latches no error. While an abort is requested the
next ENGINE step, whatever it would be, is the confirmation; with an error answer that the next request of the interrupted
machine admits, that machine's step is taken first, so the error is raised, and then the confirmation (log entry 11); an error
answer that no request of its step admits gives the confirmation alone. Memory is unchanged, but for the bytes of the bound rx
buffer past DATACNT when an abort ends a transfer under strategy DMA (spec/41_controller.md R293, R297; the free values there
are log entry 3). That both change only what those rules list is log entry 35. -/
def Obligations.AbortAndTimeout : Prop :=
  ∀ s : State, s.ctl.cmdp = true →
    let a := abortConfirm s
    let t := timeoutHalt s
    (∀ r : State, r = a ∨ r = t →
        r.ctl.life = .idle ∧ r.ctl.cmdp = false ∧ r.ctl.tmo = false ∧ r.ctl.mode = s.ctl.mode ∧
          r.fifo = { cfifo := [], sfifo := [], txfifo := [], rxfifo := [] } ∧
          r.cnt = { s.cnt with ctrlrem := 0, txrem := 0, rxrem := 0 } ∧ r.seq.phase = .idle ∧ r.tgt.trq = .none ∧
          r.seq.ccchdr = false ∧ (s.ctl.mode = .controller → r.seq.frame = false) ∧
          (s.ctl.mode = .target → r.tgt.phase = .idle) ∧
          r.env.bus =
            (if s.ctl.mode = .controller ∧ s.seq.frame = true then .req .stop :: s.env.bus else s.env.bus) ∧
          r.rep.aux =
            (if s.ctl.pendop = 0x20 then s.cnt.msgcnt
            else if s.ctl.pendop = 0x22 then s.daa.cnt.setWidth 16
            else if s.ctl.pendop = 0x30 ∨ s.ctl.pendop = 0x31 ∨ s.ctl.pendop = 0x34 then bitField s.cnt.datacnt 0 16
            else 0) ∧
          r.rep.err = s.rep.err ∧ r.rep.reserr = s.rep.callerr ∧ r.cfg = s.cfg ∧ r.tst = s.tst ∧ r.ibi = s.ibi ∧
          r.dec = s.dec ∧ r.snap = s.snap ∧ r.arg = s.arg) ∧
      a.ctl.abortreq = false ∧ a.rep.code = 7 ∧ a.rep.isr = s.rep.isr ||| 4#32 ∧ a.daa = s.daa ∧
      (s.ctl.strat ≠ .dma → a.mem = s.mem) ∧
      (∀ c : Nat, Outside s (s.work.rxBase + s.cnt.datacnt.toNat) (s.work.rxCap.toNat - s.cnt.datacnt.toNat) c →
        Memory.read a.mem c = Memory.read s.mem c) ∧
      t.ctl.abortreq = s.ctl.abortreq ∧ t.rep.code = 1 ∧
      t.rep.isr =
        s.rep.isr |||
          (if s.ctl.pendop = 0x32 ∨ s.ctl.pendop = 0x33 ∨ s.ctl.pendop = 0x34 then 0x200#32 else 0#32) ∧
      t.daa = { s.daa with phase := .idle } ∧ t.mem = s.mem ∧
      (s.ctl.abortreq = true →
        eventTurn s = .next a ∧
          (∀ (u : EngineUnit) (x : PhyAnswer), (∀ k, x ≠ .err k) → engineTurn u x s = .next a) ∧
          ∀ (u : EngineUnit) (k : ErrCode) (v : State), Answered (.err k) s →
            (s.ctl.mode = .controller ∧ controllerStep s = .next v ∨ s.ctl.mode = .target ∧ targetStep u s = .next v) →
              let asked := ∃ r : PhyReq, .req r ∈ v.env.bus.take (v.env.bus.length - s.env.bus.length) ∧
                k ∈ (match r with
                  | .addr _ _ | .wbyte _ _ | .rbyte _ _ | .daaRead | .daaWrite _ => [.ce0, .ce1, .ce3, .stall]
                  | .treq _ _ | .tbyte _ _ => [.te6, .stall]
                  | _ => [] : List ErrCode)
              (asked → engineTurn u (.err k) s = .next (abortConfirm v)) ∧
                (¬asked → engineTurn u (.err k) s = .next a))

/-! ## Lookups, acceptance, purity -/

/-- `bdt_find(a7)` is the lowest entry with V = 1 and DA = a7, or NONE (spec/10_state.md R72). -/
def Obligations.BdtFindLowest : Prop :=
  ∀ (s : State) (a : Addr7),
    (∀ i : Fin 4, bdtFind s a = some i ↔
        (s.cfg.bdt[i].v = true ∧ s.cfg.bdt[i].da = a) ∧
          ∀ j : Fin 4, j < i → ¬(s.cfg.bdt[j].v = true ∧ s.cfg.bdt[j].da = a)) ∧
      (bdtFind s a = none ↔ ∀ i : Fin 4, ¬(s.cfg.bdt[i].v = true ∧ s.cfg.bdt[i].da = a))

/-- `alloc()` is the smallest address from DAANEXT up to 0x7D that is a valid dynamic address, is in no valid Bus Device
Table entry and is not the own valid dynamic address; NONE when there is none (spec/43_daa.md R386). A valid dynamic
address, wherever a statement speaks of one, is 0x08 to 0x7D but for the six that differ from 0x7E in one bit
(spec/30_encoding.md R230). -/
def Obligations.AllocSmallest : Prop :=
  (∀ a : Addr7,
      validDa a = true ↔
        0x08 ≤ a.toNat ∧ a.toNat ≤ 0x7D ∧ a ∉ ([0x3E, 0x5E, 0x6E, 0x76, 0x7A, 0x7C] : List Addr7)) ∧
  ∀ s : State,
    let free := fun a : Addr7 =>
      s.daa.next.toNat ≤ a.toNat ∧ a.toNat ≤ 0x7D ∧ validDa a = true ∧
        (∀ i : Fin 4, ¬(s.cfg.bdt[i].v = true ∧ s.cfg.bdt[i].da = a)) ∧ ¬(s.cfg.dav = true ∧ s.cfg.da = a)
    (∀ a, alloc s = some a → free a ∧ ∀ b, free b → a.toNat ≤ b.toNat) ∧ (alloc s = none → ∀ b, ¬free b)

/-- The checks of a class-L command, in their order, for all eleven: a wrong MODE, a pending command, a STATE other than
IDLE (RESET for INIT) and, for START, DAA, SETDASA and PROBE, RECOV = 1 reject with BUSY; then a strategy the command does
not take, or DMA where it is not supported, rejects with INVALID_PARAM; nothing but RESULT and RESERR changes
(spec/41_controller.md R281, spec/30_encoding.md R171). -/
def Obligations.LongCommandGate : Prop :=
  ∀ (st : Strat) (sub : Byte) (s : State),
    ∀ row ∈
      ([(.init st sub, .none, .reset, false, [.poll]), (.start st sub, .controller, .idle, true, [.poll, .irq, .dma]),
        (.daa st sub, .controller, .idle, true, [.poll, .irq]), (.setdasa st sub, .controller, .idle, true, [.poll, .irq]),
        (.probe st sub, .controller, .idle, true, [.poll]), (.busRecover st sub, .controller, .idle, false, [.poll]),
        (.tgtTx st sub, .target, .idle, false, [.poll, .irq, .dma]),
        (.tgtRx st sub, .target, .idle, false, [.poll, .irq, .dma]), (.hjReq st sub, .target, .idle, false, [.poll, .irq]),
        (.crReq st sub, .target, .idle, false, [.poll, .irq]), (.ibiReq st sub, .target, .idle, false, [.poll, .irq])] :
        List (Instr × Mode × Life × Bool × List Strat)),
      (s.ctl.mode ≠ row.2.1 ∨ s.ctl.cmdp = true ∨ s.ctl.life ≠ row.2.2.1 ∨ (row.2.2.2.1 = true ∧ s.ctl.recov = true) →
          exec row.1 s = .next (rejectedWith 2 s)) ∧
        (s.ctl.mode = row.2.1 → s.ctl.cmdp = false → s.ctl.life = row.2.2.1 →
          (row.2.2.2.1 = true → s.ctl.recov = false) → ¬StratOk row.2.2.2.2 st s →
            exec row.1 s = .next (rejectedWith 3 s))

/-- The four commands of the encoder change nothing but system memory and PRESULT (spec/40_builder.md R251). -/
def Obligations.BuilderPurity : Prop :=
  ∀ (st : Strat) (sub : Byte) (s t : State),
    exec (.ctxReset st sub) s = .next t ∨ exec (.ctxBind st sub) s = .next t ∨
        exec (.buildPrivate st sub) s = .next t ∨ exec (.buildCcc st sub) s = .next t →
      t = { s with mem := t.mem, rep.pcode := t.rep.pcode }

/-! ## Registers, FIFO ports, MOVER -/

/-- The host's register file. A write of ISR clears the flags written as 1, SUSPENDED with bit 5 (IBI), and the pending bit
of the snapshot of every target notification cleared; a write of ERR clears the error bits written as 1 (that SUSPENDED and
PEND go whether or not the flag was set is log entry 30). ARG0..ARG3, IER (its named bits) and USERDATA (where it is
present: log entry 32) accept writes in every state; the configuration registers in INIT and IDLE alone; OWNADDR and a BDT
entry with a valid bit and an address that is no valid dynamic address keep their value and latch DYNADDR; every other
offset (CMD and the FIFO ports apart, which other statements give) ignores the write. A read of any register but the two
FIFO ports returns its fields, 0 for a write-only or reserved offset, and changes nothing; FIFOREQ has CFNF, SFNE, TXREQ and
RXREQ of the present contents, counters and thresholds, and reads 0 in RESET (spec/10_state.md R48, R52, R53, R54, R55, R61,
R62, R64, R71, R84, R85, R86; spec/20_memory.md R134; spec/42_fifo.md R348; spec/70_reset_and_hazards.md R621). -/
def Obligations.WriteOneToClear : Prop :=
  ∀ (v : Word) (off : Byte) (s : State),
    let da : Addr7 := bitField v 0 7
    let badDa := v.getLsbD 7 = true ∧ validDa da = false
    let entry : BdtEntry :=
      { da := da, v := v.getLsbD 7, ibiack := v.getLsbD 8, ibiden := v.getLsbD 9, crack := v.getLsbD 10,
        susp := v.getLsbD 11 }
    let bdt := fun i : Fin 4 => if badDa then latchFlag .dynaddr s else { s with cfg.bdt := s.cfg.bdt.set i entry }
    let config : List (Byte × State) :=
      [(0x38, { s with cfg.txthr := v.getLsbD 0, cfg.rxthr := v.getLsbD 1, cfg.sfen := v.getLsbD 2 }),
        (0x58, { s with cfg.timing0 := v }), (0x5C, { s with cfg.timing1 := v }),
        (0x60,
          if badDa then latchFlag .dynaddr s
          else { s with cfg.da := da, cfg.dav := v.getLsbD 7, cfg.sa := bitField v 8 7, cfg.sav := v.getLsbD 15 }),
        (0x64, { s with cfg.bcr := bitField v 0 8, cfg.dcr := bitField v 8 8 }), (0x68, { s with cfg.pid0 := v }),
        (0x6C, { s with cfg.pid1 := bitField v 0 16 }),
        (0x70, { s with cfg.mwl := bitField v 0 16, cfg.mrl := bitField v 16 16 }),
        (0x78, { s with cfg.daabase := da }), (0x8C, { s with cfg.hjack := v.getLsbD 0 }), (0x90, bdt 0), (0x94, bdt 1),
        (0x98, bdt 2), (0x9C, bdt 3)]
    let always : List (Byte × State) :=
      [(0x04, { s with arg.arg0 := v }), (0x08, { s with arg.arg1 := v }), (0x0C, { s with arg.arg2 := v }),
        (0x10, { s with arg.arg3 := v }), (0x20, { s with rep.err := s.rep.err &&& ~~~bitField v 0 19 }),
        (0x2C, { s with rep.ier := v &&& 0x07FF03FF }),
        (0xC0, if s.env.params.userData then { s with cfg.userdata := v } else s)]
    let life : Byte :=
      match s.ctl.life with
      | .reset => 0x00
      | .init => 0x01
      | .idle => 0x02
      | .tx => 0x11
      | .rx => 0x12
      | .txrx => 0x13
      | .daa => 0x14
      | .tgtreq => 0x15
      | .abort => 0x20
    let mode : BitVec 2 :=
      match s.ctl.mode with
      | .none => 0
      | .controller => 1
      | .target => 2
    let entryWord := fun e : BdtEntry =>
      place e.da 0 ||| place (bit e.v) 7 ||| place (bit e.ibiack) 8 ||| place (bit e.ibiden) 9 |||
        place (bit e.crack) 10 ||| place (bit e.susp) 11
    let txDepth := s.env.params.txfifoDepth
    let thrTx := min (if s.cfg.txthr = true then 4 else 1) txDepth
    let thrRx := min (if s.cfg.rxthr = true then 4 else 1) s.env.params.rxfifoDepth
    let free := txDepth - s.fifo.txfifo.length
    let cfnf := decide (s.fifo.cfifo.length < s.env.params.cfifoDepth)
    let sfne := decide (0 < s.fifo.sfifo.length)
    let txreq := decide (thrTx ≤ free ∨ (0 < s.cnt.txrem.toNat ∧ s.cnt.txrem.toNat < thrTx ∧ s.cnt.txrem.toNat ≤ free))
    let rxreq := decide
      (thrRx ≤ s.fifo.rxfifo.length ∨ (0 < s.fifo.rxfifo.length ∧ s.fifo.rxfifo.length = s.cnt.rxrem.toNat))
    let fiforeq : Word :=
      if s.ctl.life = .reset then 0
      else place (bit cfnf) 0 ||| place (bit sfne) 1 ||| place (bit txreq) 2 ||| place (bit rxreq) 3
    let shown : List (Byte × Word) :=
      [(0x04#8, s.arg.arg0), (0x08#8, s.arg.arg1), (0x0C#8, s.arg.arg2), (0x10#8, s.arg.arg3),
        (0x14#8, place s.rep.code 0 ||| place s.rep.aux 16), (0x18#8, place s.rep.reserr 0),
        (0x1C#8,
          place life 0 ||| place mode 8 ||| place (bit s.ctl.listen) 10 ||| place (bit s.ctl.recov) 11 |||
            place (bit s.ctl.cmdp) 12 ||| place (bit s.ctl.suspended) 13 ||| place (bit s.ctl.abortreq) 14),
        (0x20#8, if s.env.params.errTrack then place s.rep.err 0 else 0), (0x24#8, s.cnt.datacnt),
        (0x28#8, place s.cnt.msgcnt 0), (0x2C#8, s.rep.ier), (0x30#8, s.rep.isr), (0x34#8, s.rep.noten),
        (0x38#8, place (bit s.cfg.txthr) 0 ||| place (bit s.cfg.rxthr) 1 ||| place (bit s.cfg.sfen) 2),
        (0x3C#8, place (BitVec.ofNat 16 s.fifo.cfifo.length) 0 ||| place (BitVec.ofNat 16 s.fifo.sfifo.length) 16),
        (0x40#8, place (BitVec.ofNat 16 s.fifo.txfifo.length) 0 ||| place (BitVec.ofNat 16 s.fifo.rxfifo.length) 16),
        (0x44#8, fiforeq), (0x58#8, s.cfg.timing0), (0x5C#8, s.cfg.timing1),
        (0x60#8, place s.cfg.da 0 ||| place (bit s.cfg.dav) 7 ||| place s.cfg.sa 8 ||| place (bit s.cfg.sav) 15),
        (0x64#8, place s.cfg.bcr 0 ||| place s.cfg.dcr 8), (0x68#8, s.cfg.pid0), (0x6C#8, place s.cfg.pid1 0),
        (0x70#8, place s.cfg.mwl 0 ||| place s.cfg.mrl 16),
        (0x74#8,
          place s.tst.act 0 ||| place (bit s.tst.enint) 2 ||| place (bit s.tst.encr) 3 ||| place (bit s.tst.enhj) 4 |||
            place s.tst.rstact 8 ||| place (bit s.tst.perr) 16),
        (0x78#8, place s.cfg.daabase 0), (0x7C#8, place s.daa.cnt 0), (0x80#8, s.daa.pl0), (0x84#8, s.daa.pl1),
        (0x88#8, place s.daa.da 0), (0x8C#8, place (bit s.cfg.hjack) 0), (0x90#8, entryWord s.cfg.bdt[0]),
        (0x94#8, entryWord s.cfg.bdt[1]), (0x98#8, entryWord s.cfg.bdt[2]), (0x9C#8, entryWord s.cfg.bdt[3]),
        (0xA0#8, place s.ibi.addr 0 ||| place (bit s.ibi.rnw) 7 ||| place s.ibi.cnt 8 ||| place s.ibi.kind 16),
        (0xA4#8, s.ibi.data), (0xA8#8, s.snap.info0), (0xAC#8, s.snap.info1), (0xB0#8, s.dec.dec0), (0xB4#8, s.dec.dec1),
        (0xB8#8, s.dec.dec2), (0xBC#8, s.dec.dec3), (0xC0#8, if s.env.params.userData then s.cfg.userdata else 0),
        (0xC4#8, BitVec.ofNat 32 s.snap.nbufptr), (0xC8#8, s.snap.nbuflen), (0xCC#8, place s.cnt.ctrlrem 0),
        (0xD0#8, s.cnt.txrem), (0xD4#8, s.cnt.rxrem), (0xD8#8, place s.rep.pcode 0)]
    (∀ row ∈ always, hostTurn (.write row.1 4 v) s = .next row.2) ∧
      (∀ row ∈ config,
        hostTurn (.write row.1 4 v) s = .next (if s.ctl.life = .init ∨ s.ctl.life = .idle then row.2 else s)) ∧
      (∃ t : State, hostTurn (.write 0x30 4 v) s = .next t ∧
        (∀ n, n < 32 → t.rep.isr.getLsbD n = (s.rep.isr.getLsbD n && !v.getLsbD n)) ∧
        t.ctl.suspended = (s.ctl.suspended && !v.getLsbD 5) ∧
        (∀ i : Fin 11,
          t.snap.slots[i] = { s.snap.slots[i] with pend := s.snap.slots[i].pend && !v.getLsbD (16 + i.val) }) ∧
        t = { s with rep.isr := t.rep.isr, ctl.suspended := t.ctl.suspended, snap.slots := t.snap.slots }) ∧
      (off.toNat % 4 = 0 → off ∉ always.map Prod.fst → off ∉ config.map Prod.fst → off ∉ [0x00#8, 0x30#8, 0x48#8, 0x50#8] →
        hostTurn (.write off 4 v) s = .next s) ∧
      (∀ row ∈ shown, hostTurn (.read row.1 4) s = .next { s with env.hostRead := row.2 }) ∧
      (off.toNat % 4 = 0 → off ∉ shown.map Prod.fst → off ∉ [0x4C#8, 0x54#8] →
        hostTurn (.read off 4) s = .next { s with env.hostRead := 0 })

/-- The host's FIFO ports: CFIFO and TXFIFO take a word or a byte while they have room (a transfer of controller role, or a
START, TGT_TX or IBI_REQ, in flight, strategy not DMA), a full one drops it and latches COVR or DOVR without halting, and
every other write is ignored; a read of SFIFO or RXFIFO pops the head, one of an empty FIFO returns 0 and latches COVR or
DOVR (spec/42_fifo.md R341–R344). -/
def Obligations.FifoPorts : Prop :=
  ∀ (v : Word) (s : State),
    hostTurn (.write 0x48 4 v) s =
        .next
          (if s.ctl.mode = .controller ∧ (s.ctl.life = .tx ∨ s.ctl.life = .rx ∨ s.ctl.life = .txrx) ∧ s.ctl.strat ≠ .dma then
            if s.fifo.cfifo.length < s.env.params.cfifoDepth then { s with fifo.cfifo := s.fifo.cfifo ++ [v] }
            else latchFlag .covr s
          else s) ∧
      hostTurn (.write 0x50 4 v) s =
        .next
          (if s.ctl.cmdp = true ∧ (s.ctl.pendop = 0x20 ∨ s.ctl.pendop = 0x30 ∨ s.ctl.pendop = 0x34) ∧ s.ctl.strat ≠ .dma then
            if s.fifo.txfifo.length < s.env.params.txfifoDepth then
              { s with fifo.txfifo := s.fifo.txfifo ++ [bitField v 0 8] }
            else latchFlag .dovr s
          else s) ∧
      (∀ w ws, s.fifo.sfifo = w :: ws →
        hostTurn (.read 0x4C 4) s = .next { s with fifo.sfifo := ws, env.hostRead := w }) ∧
      (s.fifo.sfifo = [] → hostTurn (.read 0x4C 4) s = .next { latchFlag .covr s with env.hostRead := 0 }) ∧
      (∀ b bs, s.fifo.rxfifo = b :: bs →
        hostTurn (.read 0x54 4) s =
          .next
            { s with
              fifo.rxfifo := bs
              cnt.rxrem := if s.cnt.rxrem = 0 then 0 else s.cnt.rxrem - 1
              env.hostRead := b.setWidth 32 }) ∧
      (s.fifo.rxfifo = [] → hostTurn (.read 0x54 4) s = .next { latchFlag .dovr s with env.hostRead := 0 })

/-- The three actions of the MOVER, each with its guard: for a START in flight a control word into CFIFO, for it and for
TGT_TX, TGT_RX and IBI_REQ a tx byte into TXFIFO and an rx byte out of RXFIFO into memory, when TXREQ and RXREQ hold (the
threshold, 1 or 4, at most the depth, or near the end the remaining count); a memory fault, or under strategy DMA the DMA
engine's error, raises DMA with the action's counters and pointers as they were; with the guard false, a MOVER that is not
enabled included, nothing happens (spec/42_fifo.md R345, R349, R351, R352; spec/10_state.md R60, R61, R62). That an
access of several bytes faults as a whole is log entry 5; that no action moves a status word, log entry 37. -/
def Obligations.MoverMoves : Prop :=
  ∀ (dmaErr : Bool) (s : State),
    let start :=
      s.ctl.cmdp = true ∧ s.ctl.pendop = 0x20 ∧
        (s.ctl.life = .tx ∨ s.ctl.life = .rx ∨ s.ctl.life = .txrx ∨ s.ctl.life = .abort)
    let enabled := start ∨ (s.ctl.cmdp = true ∧ (s.ctl.pendop = 0x30 ∨ s.ctl.pendop = 0x31 ∨ s.ctl.pendop = 0x34))
    let fails := dmaErr = true ∧ s.ctl.strat = .dma
    let thrTx := min (if s.cfg.txthr = true then 4 else 1) s.env.params.txfifoDepth
    let thrRx := min (if s.cfg.rxthr = true then 4 else 1) s.env.params.rxfifoDepth
    let free := s.env.params.txfifoDepth - s.fifo.txfifo.length
    let txReq := thrTx ≤ free ∨ (0 < s.cnt.txrem.toNat ∧ s.cnt.txrem.toNat < thrTx ∧ s.cnt.txrem.toNat ≤ free)
    let rxReq :=
      thrRx ≤ s.fifo.rxfifo.length ∨ (0 < s.fifo.rxfifo.length ∧ s.fifo.rxfifo.length = s.cnt.rxrem.toNat)
    (moverTurn .m1 dmaErr s =
        if start ∧ s.cnt.ctrlrem ≠ 0 ∧ s.fifo.cfifo.length < s.env.params.cfifoDepth then
          if fails ∨ memRead s s.cnt.ctrlptr 4 = none then raiseError .dma s
          else
            { s with
              fifo.cfifo := s.fifo.cfifo ++ [wordAt s s.mem s.cnt.ctrlptr]
              cnt.ctrlptr := byteAt s s.cnt.ctrlptr 4
              cnt.ctrlrem := s.cnt.ctrlrem - 1 }
        else s) ∧
      (moverTurn .m2 dmaErr s =
        if enabled ∧ s.cnt.txrem ≠ 0 ∧ txReq then
          if fails ∨ readable s (byteAt s s.cnt.txptr 0) = false then raiseError .dma s
          else
            { s with
              fifo.txfifo := s.fifo.txfifo ++ [Memory.read s.mem (byteAt s s.cnt.txptr 0)]
              cnt.txptr := byteAt s s.cnt.txptr 1
              cnt.txrem := s.cnt.txrem - 1 }
        else s) ∧
      (∀ b bs, s.fifo.rxfifo = b :: bs →
        moverTurn .m3 dmaErr s =
          if enabled ∧ s.cnt.rxrem ≠ 0 ∧ rxReq then
            if fails ∨ writable s (byteAt s s.cnt.rxptr 0) = false then raiseError .dma s
            else
              { s with
                mem := Memory.write s.mem (byteAt s s.cnt.rxptr 0) b
                fifo.rxfifo := bs
                cnt.rxptr := byteAt s s.cnt.rxptr 1
                cnt.rxrem := s.cnt.rxrem - 1 }
          else s) ∧
      (s.fifo.rxfifo = [] → moverTurn .m3 dmaErr s = s)

/-! ## The encoder's commands -/

/-- CTX_RESET: a misaligned context is INVALID_PARAM and nothing else happens; otherwise, where all 48 bytes can be written,
they become 0, every other byte of memory and every register but PRESULT keeps its value, PRESULT is OK; where one cannot,
the bytes before the first such become 0 and PRESULT is INVALID_PARAM (spec/40_builder.md R240). That a nonzero SUB is
ignored is the model's choice: log entry 16. -/
def Obligations.CtxResetCompletes : Prop :=
  ∀ (st : Strat) (sub : Byte) (s : State), MemoryOk s →
    let ctx := s.arg.arg0.toNat
    (ctx % 4 ≠ 0 → exec (.ctxReset st sub) s = .next { s with rep.pcode := 3 }) ∧
      (ctx % 4 = 0 →
        ∀ n, n ≤ 48 → WritableBlock s ctx n → (n < 48 → writable s (byteAt s ctx n) = false) →
          ∃ m : Memory,
            exec (.ctxReset st sub) s = .next { s with mem := m, rep.pcode := if n = 48 then 0 else 3 } ∧
              (∀ k, k < n → Memory.read m (byteAt s ctx k) = 0) ∧
              ∀ c : Nat, Outside s ctx n c → Memory.read m c = Memory.read s.mem c)

/-- CTX_BIND: a misaligned context, a selector above 2 or a misaligned control buffer is INVALID_PARAM and nothing else
happens; otherwise the address, the capacity and BUILT = 0 are written, in that order, each in one access: where all three can
be, PRESULT is OK; where one cannot, those before it are done, neither it nor a later one is, and PRESULT is INVALID_PARAM;
every other byte and every register but PRESULT keeps its value (spec/40_builder.md R241; that an access faults as a whole is
log entry 5, that BUILT is written last log entry 40). The stored fields are read back where addresses have at least 6 bits, so
that a context does not overlap itself (log entry 6). -/
def Obligations.CtxBindCompletes : Prop :=
  ∀ (st : Strat) (sub : Byte) (s : State), MemoryOk s →
    let ctx := s.arg.arg0.toNat
    let field := ctx + 8 * sub.toNat
    (ctx % 4 ≠ 0 ∨ 2 < sub.toNat ∨ (sub = 0 ∧ s.arg.arg1.toNat % 4 ≠ 0) →
        exec (.ctxBind st sub) s = .next { s with rep.pcode := 3 }) ∧
      (ctx % 4 = 0 → sub.toNat ≤ 2 → (sub = 0 → s.arg.arg1.toNat % 4 = 0) →
        let can := fun n : Nat =>
          if n = 0 then WritableBlock s field 4
          else if n = 1 then WritableBlock s (field + 4) 4
          else writable s (byteAt s ctx 0x25) = true
        ∀ n, n ≤ 3 → (∀ k, k < n → can k) → (n < 3 → ¬can n) →
          ∃ m : Memory,
            exec (.ctxBind st sub) s = .next { s with mem := m, rep.pcode := if n = 3 then 0 else 3 } ∧
              (6 ≤ s.env.params.addrW →
                (1 ≤ n → wordAt s m field = s.arg.arg1) ∧ (2 ≤ n → wordAt s m (field + 4) = s.arg.arg2) ∧
                  (n = 3 → Memory.read m (byteAt s ctx 0x25) = 0)) ∧
              ∀ c : Nat, (1 ≤ n → Outside s field 4 c) → (2 ≤ n → Outside s (field + 4) 4 c) →
                (n = 3 → c ≠ byteAt s ctx 0x25) → Memory.read m c = Memory.read s.mem c)

/-- The validation of a build passes, with the descriptors and the buffer bindings that memory holds, exactly where all
nine checks do: alignment, the count, the mode byte and its class, the form of every descriptor, its address and code,
the control buffer (a multiple of 4: spec/20_memory.md R139), the tx and rx buffers, the readable memory; the totals are the
sums of the descriptors' counts. The mode byte has CLASS in bits 1:0, ARB, DB and TERM in bits 2, 3 and 4; it is legal where
bits 7:5 are 0 and a private or legacy class has DB = 0, a CCC class ARB = 0 (spec/40_builder.md R242, R243, R248;
spec/30_encoding.md R176, R177; spec/20_memory.md R140, R145). That all the bytes are read before the checks decide is log
entry 22; that ADDR bit 7 must be 0 in a CCC-broadcast descriptor too, log entry 48. -/
def Obligations.BuildValidation : Prop :=
  ∀ (ccc : Bool) (sub : Byte) (s : State) (ds : List Descriptor) (b : Bindings),
    let m : ModeByte :=
      { cls :=
          if bitField sub 0 2 = 0 then .privateI3c
          else if bitField sub 0 2 = 1 then .legacyI2c
          else if bitField sub 0 2 = 2 then .cccDirect
          else .cccBroadcast
        arb := sub.getLsbD 2
        db := sub.getLsbD 3
        term := sub.getLsbD 4 }
    let isCcc := m.cls = .cccDirect ∨ m.cls = .cccBroadcast
    let ctx := s.arg.arg0.toNat
    let array := s.arg.arg1.toNat
    let field := fun off : Nat => wordAt s s.mem (ctx + off)
    let desc := fun off : Nat => Memory.read s.mem (byteAt s array off)
    let size := fun n : Nat => if m.cls = .cccDirect then 2 * n else n
    let db : Nat := if isCcc ∧ m.db = true then 1 else 0
    let tx := (ds.map fun d => if d.dir = 0 ∨ m.cls = .cccBroadcast then d.count.toNat else db).sum
    let rx := (ds.map fun d => if d.dir = 1 ∧ m.cls ≠ .cccBroadcast then d.count.toNat - db else 0).sum
    (validate ccc sub s = some (ds, b) ↔
        (ctx % 4 = 0 ∧ array % 4 = 0) ∧
          (ds.length = s.arg.arg2.toNat ∧ 0 < ds.length ∧ size ds.length ≤ 0xFFFF) ∧
          (bitField sub 5 3 = 0 ∧ (¬isCcc → m.db = false) ∧ (isCcc → m.arb = false) ∧ (ccc = true ↔ isCcc)) ∧
          (∀ k (h : k < ds.length),
            ds[k] =
              { addr := desc (8 * k), ccc := desc (8 * k + 1), dir := desc (8 * k + 2), rsvd := desc (8 * k + 3),
                count := wordAt s s.mem (array + 8 * k + 4) }) ∧
          b = { ctrlBuf := field 0x00, ctrlCap := field 0x04, txBuf := field 0x08, txCap := field 0x0C,
                rxBuf := field 0x10, rxCap := field 0x14 } ∧
          (∀ d ∈ ds, d.addr.toNat < 0x80 ∧ d.rsvd = 0 ∧ d.dir.toNat ≤ 1 ∧ d.count.toNat ≤ 0xFFFF) ∧
          (ccc = false → ∀ d ∈ ds, d.ccc = 0 ∧ (m.cls = .privateI3c → validDa (bitField d.addr 0 7) = true) ∧
            (m.cls = .legacyI2c → d.addr ≠ 0x7E)) ∧
          (ccc = true → ∀ d ∈ ds, (0x80 ≤ d.ccc.toNat ↔ m.cls = .cccDirect) ∧ d.ccc ≠ 0x07 ∧
            ¬(0x20 ≤ d.ccc.toNat ∧ d.ccc.toNat ≤ 0x27) ∧ (m.cls = .cccBroadcast → d.dir = 0) ∧
            (m.cls = .cccDirect → if d.ccc = 0x87 then d.addr ≠ 0x7E else validDa (bitField d.addr 0 7) = true) ∧
            (m.db = true → d.count ≠ 0)) ∧
          (b.ctrlBuf ≠ 0 ∧ b.ctrlBuf.toNat % 4 = 0 ∧ size ds.length ≤ b.ctrlCap.toNat) ∧
          (0 < tx → b.txBuf ≠ 0 ∧ tx ≤ b.txCap.toNat) ∧ (0 < rx → b.rxBuf ≠ 0 ∧ rx ≤ b.rxCap.toNat) ∧
          (∀ k, k < 24 → readable s (byteAt s ctx k) = true) ∧
          ∀ k, k < 8 * ds.length → readable s (byteAt s array k) = true) ∧
      (validate ccc sub s = some (ds, b) →
        txTotal m ds = tx ∧ rxTotal m ds = rx ∧
          dirmix m ds =
            (if (∃ d ∈ ds, d.dir = 0) ∨ m.cls = .cccBroadcast then 1 else 0) |||
              (if ∃ d ∈ ds, d.dir = 1 then 2 else 0))

/-- BUILD_PRIVATE and BUILD_CCC: a build that fails the validation is INVALID_PARAM and writes nothing; one that passes and
whose bytes can be written stores NWORDS, TX_TOTAL, RX_TOTAL, MODE, DIRMIX, NDESC and BUILT = 1, changes no other byte than
those and the control words' and no register but PRESULT, and stores word i at CTRL_BUF + 4i, where the control buffer does
not reach into those fields. Where an access cannot be written, those before it are done (the words in order, then the header
fields, BUILT last: log entry 40), neither it nor a later one is, and PRESULT is INVALID_PARAM (spec/40_builder.md R243–R248;
that an access faults as a whole is log entry 5). The mode byte is read as in the validation (spec/30_encoding.md R176). The
stored fields and words are read back where addresses have bits enough that no access overlaps itself, nor a later one
(log entry 6). -/
def Obligations.BuildCompletes : Prop :=
  ∀ (ccc : Bool) (st : Strat) (sub : Byte) (s : State), MemoryOk s →
    let i := if ccc then Instr.buildCcc st sub else Instr.buildPrivate st sub
    let ctx := s.arg.arg0.toNat
    (validate ccc sub s = none → exec i s = .next { s with rep.pcode := 3 }) ∧
      ∀ (ds : List Descriptor) (b : Bindings), validate ccc sub s = some (ds, b) →
        let m : ModeByte :=
          { cls :=
              if bitField sub 0 2 = 0 then .privateI3c
              else if bitField sub 0 2 = 1 then .legacyI2c
              else if bitField sub 0 2 = 2 then .cccDirect
              else .cccBroadcast
            arb := sub.getLsbD 2
            db := sub.getLsbD 3
            term := sub.getLsbD 4 }
        let ws := wordsOf m ds
        let buf := b.ctrlBuf.toNat
        let num := fun n : Nat => bytes32 (BitVec.ofNat 32 n)
        let accesses : List (Nat × List Byte) :=
          (List.range ws.length).map (fun k => (buf + 4 * k, bytes32 (ws.getD k 0))) ++
            [(ctx + 0x18, num ws.length), (ctx + 0x1C, num (txTotal m ds)), (ctx + 0x20, num (rxTotal m ds)),
              (ctx + 0x24, [sub]), (ctx + 0x26, [dirmix m ds]), (ctx + 0x28, num ds.length), (ctx + 0x25, [1])]
        let access := fun n : Nat => accesses.getD n (0, [])
        (∀ n, n < accesses.length → (∀ x ∈ accesses.take n, WritableBlock s x.1 x.2.length) →
            ¬WritableBlock s (access n).1 (access n).2.length →
              ∃ u : Memory,
                exec i s = .next { s with mem := u, rep.pcode := 3 } ∧
                  (∀ c : Nat, (∀ x ∈ accesses.take n, Outside s x.1 x.2.length c) →
                    Memory.read u c = Memory.read s.mem c) ∧
                  (2 ≤ s.env.params.addrW →
                    ∀ k, k < n → ∀ j, j < (access k).2.length →
                      (∀ x ∈ (accesses.take n).drop (k + 1), Outside s x.1 x.2.length (byteAt s (access k).1 j)) →
                        Memory.read u (byteAt s (access k).1 j) = (access k).2.getD j 0)) ∧
        (WritableBlock s buf (4 * ws.length) → WritableBlock s (ctx + 0x18) 15 → WritableBlock s (ctx + 0x28) 4 →
          ∃ u : Memory,
            exec i s = .next { s with mem := u, rep.pcode := 0 } ∧
              (6 ≤ s.env.params.addrW →
                wordAt s u (ctx + 0x18) = BitVec.ofNat 32 ws.length ∧
                  wordAt s u (ctx + 0x1C) = BitVec.ofNat 32 (txTotal m ds) ∧
                  wordAt s u (ctx + 0x20) = BitVec.ofNat 32 (rxTotal m ds) ∧
                  Memory.read u (byteAt s ctx 0x24) = sub ∧ Memory.read u (byteAt s ctx 0x25) = 1 ∧
                  Memory.read u (byteAt s ctx 0x26) = dirmix m ds ∧
                  wordAt s u (ctx + 0x28) = BitVec.ofNat 32 ds.length) ∧
              (∀ c : Nat, Outside s buf (4 * ws.length) c → Outside s (ctx + 0x18) 15 c → Outside s (ctx + 0x28) 4 c →
                Memory.read u c = Memory.read s.mem c) ∧
              (4 * ws.length ≤ 2 ^ s.env.params.addrW →
                (∀ k, k < 4 * ws.length →
                    Outside s (ctx + 0x18) 15 (byteAt s buf k) ∧ Outside s (ctx + 0x28) 4 (byteAt s buf k)) →
                  ∀ k (h : k < ws.length), wordAt s u (buf + 4 * k) = ws[k]))

/-- The control words of a build: 2N in CCC-direct mode, else N; word i, or the word pair i, encodes descriptor i, in
order; MEND is 1 on every message word with TERM = 1, only on the last with TERM = 0, and never on the CCC word of a pair
(spec/40_builder.md R244–R246, R249, R250, R252). -/
def Obligations.BuildWordLaws : Prop :=
  ∀ (m : ModeByte) (ds : List Descriptor),
    (wordsOf m ds).length = (if m.cls = .cccDirect then 2 * ds.length else ds.length) ∧
      ∀ k (h : k < ds.length),
        let d := ds[k]
        let mend := m.term || decide (k + 1 = ds.length)
        let n := BitVec.ofNat 16 d.count.toNat
        let db : Nat := if m.db then 1 else 0
        (m.cls = .privateI3c →
            (wordsOf m ds)[k]? = some (addrWord 2 mend m.arb (bitField d.addr 0 7) (d.dir == 1) n)) ∧
          (m.cls = .legacyI2c →
            (wordsOf m ds)[k]? = some (addrWord 3 mend m.arb (bitField d.addr 0 7) (d.dir == 1) n)) ∧
          (m.cls = .cccBroadcast → (wordsOf m ds)[k]? = some (cccWord mend false d.ccc n)) ∧
          (m.cls = .cccDirect →
            (wordsOf m ds)[2 * k]? = some (cccWord false false d.ccc (BitVec.ofNat 16 db)) ∧
              (wordsOf m ds)[2 * k + 1]? =
                some (addrWord 4 mend false (bitField d.addr 0 7) (d.dir == 1) (BitVec.ofNat 16 (d.count.toNat - db))))

/-- DECODE_PAYLOAD: DEC0..DEC3 get the fields of the payload ARG1 ++ ARG0, PRESULT is OK, nothing else changes
(spec/43_daa.md R395). That a nonzero SUB is ignored is log entry 16. -/
def Obligations.DecodePayloadCompletes : Prop :=
  ∀ (st : Strat) (sub : Byte) (s : State),
    let p : BitVec 64 := s.arg.arg1 ++ s.arg.arg0
    exec (.decodePayload st sub) s =
      .next
        { s with
          dec.dec0 :=
            place (bitField p 8 8) 0 ||| place (bitField p 0 8) 8 ||| place (bitField p 48 1) 16 |||
              place (bitField p 28 4) 20
          dec.dec1 := place (bitField p 49 15) 0 ||| place (bitField p 32 16) 16
          dec.dec2 := place (bitField p 16 12) 0
          dec.dec3 := place (bitField p 8 8) 0
          rep.pcode := 0 }

/-- The decomposition of a payload is a bijection: the payload is put together again from the fields that DECODE_PAYLOAD
leaves in DEC0..DEC2, IDTSEL is 0 or 1, MIPIMID is below 0x8000 and MIPIID below 0x10 (spec/43_daa.md R396). -/
def Obligations.PayloadBijection : Prop :=
  ∀ (p : BitVec 64) (s : State),
    let d := (decodePayload p s).dec
    let mipimid := (bitField d.dec1 0 16).toNat
    let idtsel := (bitField d.dec0 16 4).toNat
    let partid := (bitField d.dec1 16 16).toNat
    let mipiid := (bitField d.dec0 20 12).toNat
    let pidext := d.dec2.toNat
    let bcr := (bitField d.dec0 0 8).toNat
    let dcr := (bitField d.dec0 8 8).toNat
    (idtsel = 0 ∨ idtsel = 1) ∧ mipimid < 0x8000 ∧ mipiid < 0x10 ∧
      p.toNat =
        mipimid * 2 ^ 49 + idtsel * 2 ^ 48 + partid * 2 ^ 32 + mipiid * 2 ^ 28 + pidext * 2 ^ 16 + bcr * 2 ^ 8 + dcr

/-! ## Lifecycle commands -/

/-- INIT from reset: every element takes its reset value, PENDOP's too (log entry 26), but MODE (1 CONTROLLER, 2 TARGET),
STATE (INIT) and CMDP (1); another SUB is INVALID_PARAM; the next ENGINE step puts STATE to IDLE and finishes with OK; system
memory, the DMA engine and the environment are untouched (spec/41_controller.md R300, spec/70_reset_and_hazards.md R620,
R622). -/
def Obligations.InitCompletes : Prop :=
  ∀ (sub : Byte) (s : State), s.ctl.mode = .none → s.ctl.cmdp = false → s.ctl.life = .reset →
    (sub ≠ 1 → sub ≠ 2 → exec (.init .poll sub) s = .next (rejectedWith 3 s)) ∧
      ∀ m : Mode, (sub = 1 ∧ m = .controller) ∨ (sub = 2 ∧ m = .target) →
        let t : State :=
          { State.reset with
            ctl.mode := m
            ctl.life := .init
            ctl.cmdp := true
            mem := s.mem
            env := s.env
            work.dmaEngine := s.work.dmaEngine
            work.draws := s.work.draws }
        exec (.init .poll sub) s = .next t ∧
          ∀ (u : EngineUnit) (a : PhyAnswer), engineTurn u a t = .next { t with ctl.life := .idle, ctl.cmdp := false }

/-- DEINIT in INIT or IDLE with no command pending, a target request being handled included (log entry 42), resets every
element of the block, answers OK, and leaves system memory, the DMA engine and the environment alone; ABORT of a pending
command in a busy state other than DAA requests the abort; both answer BUSY, and change nothing else, in every other case
(spec/41_controller.md R301, R292; spec/70_reset_and_hazards.md R622). That ABORT is BUSY in mode NONE too is log entry 22;
that a nonzero SUB is ignored, log entry 16. -/
def Obligations.DeinitAbortComplete : Prop :=
  ∀ (st : Strat) (sub : Byte) (s : State),
    exec (.deinit st sub) s =
        .next
          (if (s.ctl.life = .init ∨ s.ctl.life = .idle) ∧ s.ctl.cmdp = false then
            { State.reset with
              rep.pcode := 0
              mem := s.mem
              env := s.env
              work.dmaEngine := s.work.dmaEngine
              work.draws := s.work.draws }
          else { s with rep.pcode := 2 }) ∧
      exec (.abort st sub) s =
        .next
          (if s.ctl.mode ≠ .none ∧ (s.ctl.life = .tx ∨ s.ctl.life = .rx ∨ s.ctl.life = .txrx ∨ s.ctl.life = .tgtreq) ∧
              s.ctl.cmdp = true ∧ s.ctl.abortreq = false then
            { s with
              ctl.abortreq := true, ctl.life := .abort, ctl.suspended := false, ctl.tmo := false, rep.pcode := 0 }
          else { s with rep.pcode := 2 })

/-! ## Controller commands -/

/-- START: a misaligned or unreadable context, BUILT ≠ 1, NWORDS = 0 or a misaligned control buffer is INVALID_PARAM;
otherwise the pointers and counters are loaded from the context, the FIFOs flushed, the counts and flags of the transfer
cleared, STATE is TX, RX or TXRX by DIRMIX and the sequencer waits for a word; memory is unchanged (spec/41_controller.md
R281, R282; spec/20_memory.md R139, R145; the fields of `work` are the model's, log entry 9: they keep the rx buffer, of size
0 where RX_BUF = 0 binds none, log entry 3). That the 48 bytes are read whole is log entry 22; that a nonzero SUB is ignored,
log entry 16; that a target request still being handled goes on to its STOP, log entry 39. -/
def Obligations.StartAccepted : Prop :=
  ∀ (st : Strat) (sub : Byte) (s : State), Ready .controller s → s.ctl.recov = false →
    StratOk [.poll, .irq, .dma] st s →
      let ctx := s.arg.arg0.toNat
      let field := fun off : Nat => wordAt s s.mem (ctx + off)
      let pointer := fun off : Nat => byteAt s (field off).toNat 0
      let built := Memory.read s.mem (byteAt s ctx 0x25)
      let dirmix := Memory.read s.mem (byteAt s ctx 0x26)
      (ctx % 4 ≠ 0 ∨ (∃ k, k < 48 ∧ readable s (byteAt s ctx k) = false) ∨ built ≠ 1 ∨ field 0x18 = 0 ∨
            (field 0x00).toNat % 4 ≠ 0 →
          exec (.start st sub) s = .next (rejectedWith 3 s)) ∧
        (ctx % 4 = 0 → (∀ k, k < 48 → readable s (byteAt s ctx k) = true) → built = 1 → field 0x18 ≠ 0 →
          (field 0x00).toNat % 4 = 0 →
            exec (.start st sub) s =
              .next
                { acceptedAs 0x20 st s.arg.arg1 s with
                  ctl.suspended := false
                  ctl.life := if dirmix = 1 then .tx else if dirmix = 2 then .rx else .txrx
                  cnt.ctxaddr := byteAt s ctx 0
                  cnt.ctrlptr := pointer 0x00
                  cnt.ctrlrem := bitField (field 0x18) 0 16
                  cnt.txptr := pointer 0x08
                  cnt.txrem := field 0x1C
                  cnt.rxptr := pointer 0x10
                  cnt.rxrem := field 0x20
                  cnt.datacnt := 0
                  cnt.msgcnt := 0
                  fifo := { cfifo := [], sfifo := [], txfifo := [], rxfifo := [] }
                  seq.frame := false
                  seq.ccchdr := false
                  seq.ccclast := 0
                  seq.handover := false
                  seq.phase := .fetch
                  work.rxBase := pointer 0x10
                  work.rxCap := if field 0x10 = 0 then 0 else field 0x14 })

/-- The one-shot commands. SETDASA: an operand wider than 7 bits or the broadcast address is INVALID_PARAM; an invalid
new address (the static one when the operand is 0) is INVALID_PARAM with DYNADDR latched and in RESERR; else STATE is
TX. PROBE: a variant above 1, a wide or invalid address or no trials is INVALID_PARAM; else STATE is TX. BUS_RECOVER is
accepted, also with RECOV = 1. DATACNT is cleared by the first two. Then their ENGINE steps, one PHY request each (log entry
9): SETDASA sends START, 0x7E/W, 0x87, Sr, the address, the new address, STOP and finishes OK, a NACK is CE2 or ANACK; PROBE
sends START, 0x7E/W, Sr, the address (START and the address for I2C) and STOP, a NACK fails the trial, a success finishes OK
with the number of the trial, the last failure raises ANACK; BUS_RECOVER clears RECOV and finishes OK; an error answer raises
it; a target request that wins a START is handled first (spec/41_controller.md R281, R294, R295, R296). The order of the
checks of SETDASA is log entry 17; that SUB is ignored, log entry 16; FRAME in a trial of PROBE, log entry 10. -/
def Obligations.OneShotsAccepted : Prop :=
  ∀ (st : Strat) (sub : Byte) (s : State),
    (Ready .controller s → s.ctl.recov = false → st = .poll ∨ st = .irq →
        let sa := bitField s.arg.arg0 0 7
        let da := if bitField s.arg.arg1 0 7 = 0 then sa else bitField s.arg.arg1 0 7
        exec (.setdasa st sub) s =
          .next
            (if 128 ≤ s.arg.arg0.toNat ∨ 128 ≤ s.arg.arg1.toNat ∨ sa = 0x7E then rejectedWith 3 s
            else if validDa da = false then { latchFlag .dynaddr (rejectedWith 3 s) with rep.reserr := 1#19 <<< 18 }
            else
              { acceptedAs 0x23 st s.arg.arg2 s with
                ctl.life := .tx, cnt.datacnt := 0, work.opAddr := sa, work.opData := da })) ∧
      (Ready .controller s → s.ctl.recov = false → st = .poll →
        let a := bitField s.arg.arg0 0 7
        exec (.probe st sub) s =
          .next
            (if 1 < sub.toNat ∨ 128 ≤ s.arg.arg0.toNat ∨ s.arg.arg1 = 0 ∨ (sub = 0 ∧ validDa a = false) ∨
                (sub = 1 ∧ a = 0x7E) then rejectedWith 3 s
            else
              { acceptedAs 0x24 st s.arg.arg2 s with
                ctl.life := .tx
                cnt.datacnt := 0
                work.opAddr := a
                work.opI2c := decide (sub = 1)
                work.opOk := true
                work.trial := 1
                work.trials := s.arg.arg1 })) ∧
      (Ready .controller s → st = .poll →
        exec (.busRecover st sub) s = .next { acceptedAs 0x25 st 0 s with ctl.life := .tx }) ∧
      (s.work.request = .idle → s.ctl.life = .tx → s.ctl.cmdp = true →
        let head : PhyReq := .addr 0x7E false
        let addr : PhyReq := .addr s.work.opAddr false
        let code : PhyReq := .wbyte 0x87 false
        let newDa : PhyReq := .wbyte (s.work.opData ++ 0#1) false
        let go := fun (r : PhyReq) (m : Micro) => { driven r s with work.micro := m }
        let opened := fun m : Micro => { go .start m with seq.frame := true }
        let failed := fun r : PhyReq => { go r .stop with work.opOk := false }
        let closed := { go .stop .start with seq.frame := false }
        (∀ row ∈
            ([(0x23, .start, .ok, opened .hdr), (0x23, .hdr, .ack, go head .code),
              (0x23, .hdr, .nack, raiseError .ce2 (driven head s)), (0x23, .code, .ok, go code .rstart),
              (0x23, .rstart, .ok, go .rstart .addr), (0x23, .addr, .ack, go addr .data),
              (0x23, .addr, .nack, raiseError .anack (driven addr s)),
              (0x23, .data, .ok, { go newDa .stop with cnt.datacnt := 1 }), (0x23, .stop, .ok, endedWith 0 0 0 closed),
              (0x24, .start, .ok, opened (if s.work.opI2c then .addr else .hdr)), (0x24, .hdr, .ack, go head .rstart),
              (0x24, .hdr, .nack, failed head), (0x24, .rstart, .ok, go .rstart .addr), (0x24, .addr, .ack, go addr .stop),
              (0x24, .addr, .nack, failed addr),
              (0x24, .stop, .ok,
                if s.work.opOk then endedWith 0 0 (bitField s.work.trial 0 16) closed
                else if s.work.trials.toNat ≤ s.work.trial.toNat then
                  raiseError .anack { driven .stop s with seq.frame := false }
                else { closed with work.trial := s.work.trial + 1, work.opOk := true }),
              (0x25, .start, .ok,
                endedWith 0 0 0 { go .recover .start with ctl.recov := false, seq.frame := false })] :
              List (Byte × Micro × PhyAnswer × State)),
            s.ctl.pendop = row.1 → s.work.micro = row.2.1 → Answered row.2.2.1 s → controllerStep s = .next row.2.2.2) ∧
          (∀ b w, s.ctl.pendop = 0x23 ∨ s.ctl.pendop = 0x24 → s.work.micro = .start → Answered (.arb b w) s →
            controllerStep s = .next { driven .start s with seq.frame := true, work.request := .ack b w }) ∧
          ∀ k ∈ ([.ce0, .ce1, .ce3, .stall] : List ErrCode), Answered (.err k) s →
            ∀ row ∈
              ([(0x23, .hdr, head), (0x23, .code, code), (0x23, .addr, addr), (0x23, .data, newDa), (0x24, .hdr, head),
                (0x24, .addr, addr)] : List (Byte × Micro × PhyReq)),
              s.ctl.pendop = row.1 → s.work.micro = row.2.1 →
                controllerStep s = .next (raiseError k (driven row.2.2 s)))

/-- DAA: a variant above 1, or a misaligned output array with room under POLL, is INVALID_PARAM; else STATE is DAA, DATACNT,
DAACNT and DAADA are cleared, the allocator starts at DAABASE, and the round begins with RSTDAA (variant 0) or ENTDAA (variant
1) (spec/43_daa.md R381; that DAAPTR and DAAROOM are loaded under IRQ too is log entry 25). Then the phases, one PHY request a
step (log entry 9): D_RSTDAA and D_ENTDAA send START, 0x7E/W and their code (R382, R383); D_LOOP waits while the host has not
consumed a payload (IRQ) or ends the round when the array is full (POLL), else sends Sr and 0x7E/R and takes the 64-bit
payload (R384); D_ASSIGN offers the next free address, and none left raises DYNADDR; the payload is reported before or after
the DAWRITE as `P_DAA_PAYLOAD_TIMING` says: DAA_DEV is flagged and, under POLL, the payload stored, a memory fault raises DMA
(R385, R387, R388; the split is log entry 23; a device whose payload store faults is counted under post_assign, log entry 50);
an acknowledged DAWRITE counts the device and moves the allocator on, a NACK raises ANACK; a NACKed header ends the round:
STOP, DAA_DONE, OK with DAACNT (R392); an error answer raises it; a target request that wins a START is handled first
(spec/46_events.md R520), with FRAME = 1 (log entry 10). That the 8-byte payload write faults as a whole is log entry 5. -/
def Obligations.DaaAccepted : Prop :=
  ∀ (st : Strat) (sub : Byte) (s : State),
    (Ready .controller s → s.ctl.recov = false → st = .poll ∨ st = .irq →
        exec (.daa st sub) s =
          .next
            (if 1 < sub.toNat ∨ (st = .poll ∧ s.arg.arg1 ≠ 0 ∧ s.arg.arg0.toNat % 4 ≠ 0) then rejectedWith 3 s
            else
              { acceptedAs 0x22 st s.arg.arg2 s with
                ctl.life := .daa
                cnt.datacnt := 0
                daa.cnt := 0
                daa.da := 0
                daa.ptr := byteAt s s.arg.arg0.toNat 0
                daa.room := s.arg.arg1
                daa.next := s.cfg.daabase
                daa.phase := if sub = 0 then .rstdaa else .entdaa })) ∧
      (let head : PhyReq := .addr 0x7E false
       let rhead : PhyReq := .addr 0x7E true
       let go := fun (r : PhyReq) (m : Micro) => { driven r s with work.micro := m }
       let enter := fun (r : PhyReq) (p : DaaPhase) => { driven r s with daa.phase := p, work.micro := .start }
       let opened := { go .start .hdr with seq.frame := true }
       let ended := endedWith 4 0 (s.daa.cnt.setWidth 16) { enter .stop .idle with seq.frame := false }
       let reported := fun (p : DaaPhase) (m : Micro) (t : State) =>
         let u := { t with daa.phase := p, work.micro := m, rep.isr := s.rep.isr ||| 8#32 }
         if s.ctl.strat = .poll then
           if (List.range 8).all fun k => writable s (byteAt s s.daa.ptr k) then
             { u with
               mem := Memory.store s.env.params.addrW s.mem s.daa.ptr (bytes32 s.daa.pl0 ++ bytes32 s.daa.pl1)
               daa.ptr := byteAt s s.daa.ptr 8
               daa.room := s.daa.room - 1 }
           else raiseError .dma t
         else u
       let counted := { driven (.daaWrite s.daa.da) s with daa.cnt := s.daa.cnt + 1, daa.next := s.daa.da + 1 }
       let assigned :=
         if s.env.params.daaTiming = .preAssign then { counted with daa.phase := .loop, work.micro := .start }
         else reported .loop .start counted
       let waits := s.ctl.strat = .irq ∧ s.rep.isr.getLsbD 3 = true
       let filled := s.ctl.strat = .poll ∧ s.daa.room = 0
       (∀ row ∈
            ([(.rstdaa, .start, .ok, opened), (.rstdaa, .hdr, .ack, go head .code), (.rstdaa, .hdr, .nack, go head .quit),
              (.rstdaa, .code, .ok, go (.wbyte 0x06 false) .stop),
              (.rstdaa, .stop, .ok, { enter .stop .entdaa with seq.frame := false }), (.entdaa, .start, .ok, opened),
              (.entdaa, .hdr, .ack, go head .code), (.entdaa, .hdr, .nack, go head .quit),
              (.entdaa, .code, .ok, enter (.wbyte 0x07 false) .loop),
              (.loop, .start, .ok, if waits then s else if filled then ended else go .rstart .addr),
              (.loop, .addr, .ack, go rhead .data), (.loop, .addr, .nack, go rhead .quit),
              (.assign, .data, .ack, assigned), (.assign, .data, .nack, raiseError .anack (driven (.daaWrite s.daa.da) s)),
              (.rstdaa, .quit, .ok, ended), (.entdaa, .quit, .ok, ended), (.loop, .quit, .ok, ended)] :
              List (DaaPhase × Micro × PhyAnswer × State)),
            s.daa.phase = row.1 → s.work.micro = row.2.1 → Answered row.2.2.1 s → daaStep s = row.2.2.2) ∧
          (∀ p : BitVec 64, s.daa.phase = .loop → s.work.micro = .data → Answered (.payload p) s →
            daaStep s =
              { enter .daaRead .assign with
                daa.pl0 := bitField p 0 32, daa.pl1 := bitField p 32 32, cnt.datacnt := s.cnt.datacnt + 8 }) ∧
          (s.daa.phase = .assign → s.work.micro = .start →
            (alloc s = none → daaStep s = raiseError .dynaddr s) ∧
              ∀ a, alloc s = some a →
                daaStep s =
                  if s.env.params.daaTiming = .preAssign then reported .assign .data { s with daa.da := a }
                  else { s with daa.da := a, work.micro := .data }) ∧
          (∀ b w, s.daa.phase = .rstdaa ∨ s.daa.phase = .entdaa → s.work.micro = .start → Answered (.arb b w) s →
            daaStep s = { driven .start s with seq.frame := true, work.request := .ack b w }) ∧
          ∀ k ∈ ([.ce0, .ce1, .ce3, .stall] : List ErrCode), Answered (.err k) s →
            ∀ row ∈
              ([(.rstdaa, .hdr, head), (.rstdaa, .code, .wbyte 0x06 false), (.entdaa, .hdr, head),
                (.entdaa, .code, .wbyte 0x07 false), (.loop, .addr, rhead), (.loop, .data, .daaRead),
                (.assign, .data, .daaWrite s.daa.da)] : List (DaaPhase × Micro × PhyReq)),
              s.daa.phase = row.1 → s.work.micro = row.2.1 → daaStep s = raiseError k (driven row.2.2 s))

/-! ## Target commands -/

/-- TGT_TX and TGT_RX: a length of 0 or above 0xFFFF is INVALID_PARAM; else STATE is TX or RX, the length, the pointer and
the remaining count are loaded, each FIFO is flushed (log entry 36), DATACNT and TGTEND are cleared
(spec/44_target.md R420, R422; spec/42_fifo.md R340; spec/41_controller.md R281). That a nonzero SUB is ignored is log entry
16. -/
def Obligations.TargetTransfersAccepted : Prop :=
  ∀ (st : Strat) (sub : Byte) (s : State), Ready .target s → StratOk [.poll, .irq, .dma] st s →
    let bad := s.arg.arg1 = 0 ∨ 0xFFFF < s.arg.arg1.toNat
    let pointer := byteAt s s.arg.arg0.toNat 0
    exec (.tgtTx st sub) s =
        .next
          (if bad then rejectedWith 3 s
          else
            { acceptedAs 0x30 st s.arg.arg2 s with
              ctl.life := .tx
              tgt.tgtlen := s.arg.arg1
              tgt.tgtend := false
              cnt.txptr := pointer
              cnt.txrem := s.arg.arg1
              cnt.datacnt := 0
              fifo := { cfifo := [], sfifo := [], txfifo := [], rxfifo := [] }
              work.rxBase := 0
              work.rxCap := 0 }) ∧
      exec (.tgtRx st sub) s =
        .next
          (if bad then rejectedWith 3 s
          else
            { acceptedAs 0x31 st s.arg.arg2 s with
              ctl.life := .rx
              tgt.tgtlen := s.arg.arg1
              tgt.tgtend := false
              cnt.rxptr := pointer
              cnt.rxrem := s.arg.arg1
              cnt.datacnt := 0
              fifo := { cfifo := [], sfifo := [], txfifo := [], rxfifo := [] }
              work.rxBase := pointer
              work.rxCap := s.arg.arg1 })

/-- HJ_REQ, CR_REQ and IBI_REQ: the argument checks reject with INVALID_PARAM (a target that has an address; one that has
none or is not controller-capable; one that has none, a payload above 0xFF bytes or of an incapable target); else STATE is
TGTREQ, and IBI_REQ loads its payload and flushes each FIFO (log entry 36) (spec/44_target.md R425, R430, R436;
spec/42_fifo.md R340; spec/41_controller.md R281). That a nonzero SUB is ignored is log entry 16. -/
def Obligations.TargetRequestsAccepted : Prop :=
  ∀ (st : Strat) (sub : Byte) (s : State), Ready .target s → st = .poll ∨ st = .irq →
    exec (.hjReq st sub) s =
        .next
          (if s.cfg.dav = true then rejectedWith 3 s
          else { acceptedAs 0x32 st s.arg.arg2 s with ctl.life := .tgtreq, tgt.trq := .none }) ∧
      exec (.crReq st sub) s =
        .next
          (if s.cfg.dav = false ∨ bitField s.cfg.bcr 6 2 ≠ 1 then rejectedWith 3 s
          else { acceptedAs 0x33 st s.arg.arg2 s with ctl.life := .tgtreq }) ∧
      exec (.ibiReq st sub) s =
        .next
          (if s.cfg.dav = false ∨ 0xFF < s.arg.arg1.toNat ∨ (s.arg.arg1 ≠ 0 ∧ s.cfg.bcr.getLsbD 2 = false) ∨
              s.cfg.bcr.getLsbD 1 = false then rejectedWith 3 s
          else
            { acceptedAs 0x34 st s.arg.arg2 s with
              ctl.life := .tgtreq
              cnt.txptr := byteAt s s.arg.arg0.toNat 0
              cnt.txrem := s.arg.arg1
              cnt.datacnt := 0
              tgt.tgtlen := s.arg.arg1
              fifo := { cfifo := [], sfifo := [], txfifo := [], rxfifo := [] } })

/-- The ENGINE step of a pending target request on a free bus: without its grant it ends REFUSED and drives nothing; a lost
arbitration changes nothing but the bus; a NACK ends it REFUSED, or NACKED for an IBI, with no error latched; an
acknowledged hot-join waits for ENTDAA, an acknowledged role request for GETACCCR, an acknowledged IBI with a payload for
its bytes; an IBI without a payload, or whose last byte was taken or which the controller stops, ends: TXFIFO flushed,
N_IBIEND notified, TREQ_DONE flagged, OK with the bytes sent; a payload byte that is taken leaves TXFIFO and is counted, with
TXFIFO empty the step waits; an error answer raises it (spec/44_target.md R425, R430, R436, R437). That TE6 also sets PERR is
log entry 13. -/
def Obligations.TargetRequestAnswers : Prop :=
  ∀ s : State, s.ctl.cmdp = true →
    let failed := fun (k : ErrCode) (r : PhyReq) =>
      raiseError k (if k = .te6 then { driven r s with tst.perr := true } else driven r s)
    let ibiOver := fun t : State =>
      endedWith 9 0 (bitField t.cnt.datacnt 0 16)
        (notify .nIbiEnd { t with tgt.trq := .none, cnt.txrem := 0, fifo.txfifo := [] })
    (s.tgt.phase = .idle → s.tgt.trq = .none →
        ∀ row ∈
          ([(0x32, s.tst.enhj, .treq 0x02 false, 5, .hjWaitDaa),
            (0x33, s.tst.encr, .treq s.cfg.da false, 5, .crWaitGetacccr),
            (0x34, s.tst.enint, .treq s.cfg.da true, 6, .ibiData)] :
            List (Byte × Bool × PhyReq × BitVec 4 × TgtRequest)),
          s.ctl.pendop = row.1 →
            (row.2.1 = false → targetRequestStep s = endedWith 9 5 0 s) ∧
              (row.2.1 = true →
                (Answered .lost s → targetRequestStep s = driven row.2.2.1 s) ∧
                  (Answered .nack s → targetRequestStep s = endedWith 9 row.2.2.2.1 0 (driven row.2.2.1 s)) ∧
                  (Answered .ack s →
                    targetRequestStep s =
                      if row.1 = 0x34 ∧ s.tgt.tgtlen = 0 then ibiOver (driven row.2.2.1 s)
                      else { driven row.2.2.1 s with tgt.trq := row.2.2.2.2 }) ∧
                  ∀ k ∈ ([.te6, .stall] : List ErrCode), Answered (.err k) s →
                    targetRequestStep s = failed k row.2.2.1)) ∧
      (s.tgt.trq = .ibiData → s.ctl.pendop = 0x34 →
        (s.fifo.txfifo = [] → targetRequestStep s = s) ∧
          ∀ b bs, s.fifo.txfifo = b :: bs →
            let last := decide (s.cnt.datacnt + 1 = s.tgt.tgtlen)
            let r : PhyReq := .tbyte b last
            let t := { driven r s with fifo.txfifo := bs, cnt.datacnt := s.cnt.datacnt + 1 }
            (Answered .ok s → targetRequestStep s = if last then ibiOver t else t) ∧
              (Answered .stopped s → targetRequestStep s = ibiOver (driven r s)) ∧
              ∀ k ∈ ([.te6, .stall] : List ErrCode), Answered (.err k) s → targetRequestStep s = failed k r) ∧
      (s.tgt.trq = .hjWaitDaa ∨ s.tgt.trq = .crWaitGetacccr ∨ (s.tgt.trq = .none ∧ s.tgt.phase ≠ .idle) →
        targetRequestStep s = s)

/-- A private transfer in target role. Address match: 0x7E/W is acknowledged and a CCC code follows; 0x7E/R and the addresses
one bit from 0x7E are NACKed and latch TE0; the own address is that of the direct CCC in force, else it is acknowledged for a
pending TGT_RX (write) or TGT_TX (read) whose message has not ended, and NACKed otherwise, as every other address; one outside
T_ADDR is only NACKed (log entry 15). A byte of a private write is pushed into RXFIFO and counted while it is within the limit
(TGTLEN, or MWL where that is smaller and not 0), a byte past the limit raises DOVR, which drops the bytes that RXFIFO still
holds (the model's choice between R423 and R570: log entry 43); a byte of a private read that the
controller takes leaves TXFIFO and is counted, and the last, or a stop by the controller (log entry 14), ends the message; an
error answer raises it, TE6 with PERR (log entry 13). The end of a message at START, Sr or STOP drops the bytes that will not
come; TGT_TX and TGT_RX then finish OK with DATACNT once every byte is drained (spec/44_target.md R421, R423, R427, R428). -/
def Obligations.TargetPrivateTransfer : Prop :=
  ∀ (b : Byte) (bs : List Byte) (s : State),
    let wlim : Nat := if s.cfg.mwl = 0 then s.tgt.tgtlen.toNat else min s.tgt.tgtlen.toNat s.cfg.mwl.toNat
    let rlim : Nat := if s.cfg.mrl = 0 then s.tgt.tgtlen.toNat else min s.tgt.tgtlen.toNat s.cfg.mrl.toNat
    let writeOver := { s with cnt.rxrem := s.cnt.rxrem - (s.tgt.tgtlen - s.cnt.datacnt), tgt.tgtend := true }
    let readOver := fun t : State => { t with cnt.txrem := 0, fifo.txfifo := [], tgt.tgtend := true }
    (∀ (a : Addr7) (rnw : Bool),
        let acked := fun p : TgtPhase => { s with env.bus := .answer true :: s.env.bus, tgt.phase := p }
        let nacked := fun t : State => { t with env.bus := .answer false :: t.env.bus, tgt.phase := .ignore }
        let mine := (s.cfg.dav = true ∧ a = s.cfg.da) ∨ (s.cfg.dav = false ∧ s.cfg.sav = true ∧ a = s.cfg.sa)
        let near := a ∈ ([0x3E, 0x5E, 0x6E, 0x76, 0x7A, 0x7C, 0x7F] : List Addr7)
        let armed := fun op : Byte => s.ctl.cmdp = true ∧ s.ctl.pendop = op ∧ s.tgt.tgtend = false
        (s.tgt.phase ≠ .addr → targetEvent (.addr a rnw) s = .next { s with env.bus := .answer false :: s.env.bus }) ∧
          (s.tgt.phase = .addr →
            if a = 0x7E ∧ rnw = false then targetEvent (.addr a rnw) s = .next (acked .ccc)
            else if a = 0x7E ∨ near then targetEvent (.addr a rnw) s = .next (nacked (detect .te0 s))
            else if mine ∧ 0x80 ≤ s.tgt.ccccur.toNat then
              (∀ i r, decode .ccc [s.tgt.ccccur] = .ok (i, r) → targetEvent (.addr a rnw) s = exec i s) ∧
                ∀ e, decode .ccc [s.tgt.ccccur] = .error e → targetEvent (.addr a rnw) s = .next (nacked s)
            else if mine ∧ rnw = false ∧ armed 0x31 then targetEvent (.addr a rnw) s = .next (acked .privW)
            else if mine ∧ rnw = true ∧ armed 0x30 then targetEvent (.addr a rnw) s = .next (acked .privR)
            else targetEvent (.addr a rnw) s = .next (nacked s))) ∧
      (s.tgt.phase = .privW →
        targetEvent (.byte b) s =
            .next
              (if s.cnt.datacnt.toNat = wlim then raiseError .dovr s
              else { s with fifo.rxfifo := s.fifo.rxfifo ++ [b], cnt.datacnt := s.cnt.datacnt + 1 }) ∧
          ∀ e ∈ ([.start, .rstart, .stop] : List PhyEvent), targetEvent e s = .next (frameEvent e writeOver)) ∧
      (s.tgt.phase = .privR →
        (∀ e ∈ ([.start, .rstart, .stop] : List PhyEvent), targetEvent e s = .next (frameEvent e (readOver s))) ∧
          (s.ctl.cmdp = true → s.ctl.pendop = 0x30 → s.tgt.tgtend = false →
            (s.fifo.txfifo = [] → targetStep .drive s = .next s) ∧
              (s.fifo.txfifo = b :: bs →
                let last := decide ((s.cnt.datacnt + 1).toNat = rlim)
                let r := driven (.tbyte b last) s
                let t := { r with fifo.txfifo := bs, cnt.datacnt := s.cnt.datacnt + 1 }
                (Answered .ok s →
                    targetStep .drive s = .next (if last then readOver { t with tgt.phase := .ignore } else t)) ∧
                  (Answered .stopped s → targetStep .drive s = .next (readOver r)) ∧
                  ∀ k ∈ ([.te6, .stall] : List ErrCode), Answered (.err k) s →
                    targetStep .drive s = .next (raiseError k (if k = .te6 then { r with tst.perr := true } else r))))) ∧
      targetStep .close s =
        .next
          (if s.ctl.cmdp = true ∧ (s.ctl.pendop = 0x30 ∨ s.ctl.pendop = 0x31) ∧ s.tgt.tgtend = true ∧ s.cnt.rxrem = 0 then
            endedWith 8 0 (bitField s.cnt.datacnt 0 16) { s with tgt.tgtend := false }
          else s)

/-- The controller's side of a target request. An in-band interrupt of an address with no valid entry, or one whose entry does
not acknowledge, is answered REQACK(0) and recorded nowhere; one whose entry does is answered REQACK(1), recorded with CNT = 0,
and its payload is read where the entry says so; payload byte k goes into byte k of IBIDATA and CNT is k + 1; the STOP
that ends it sets SUSPENDED where the entry says so and a START is pending, and notifies IBI. A hot-join is acknowledged and
recorded (KIND 2) where HJACK says so, a role request (KIND 1) where its entry does, both are answered REQACK(0) otherwise, and
the STOP notifies HJ or CRREQ. Every path ends with STOP. An error answer during the payload raises it when a command is
pending; with none it is latched and flagged, CE1 sets RECOV, and the STOP follows (log entry 12) (spec/46_events.md R521,
R522, R523, R524, R526, R527). -/
def Obligations.IbiReception : Prop :=
  ∀ (a : Addr7) (s : State),
    let refused := { driven (.reqAck false) s with work.request := .stop .none }
    let stopped := { driven .stop s with seq.frame := false, work.request := .idle }
    (Answered .ok s →
        (s.work.request = .ack a true →
            (bdtFind s a = none ∨ (∃ i, bdtFind s a = some i ∧ s.cfg.bdt[i].ibiack = false) → requestStep s = refused) ∧
              ∀ i, bdtFind s a = some i → s.cfg.bdt[i].ibiack = true →
                requestStep s =
                  { driven (.reqAck true) s with
                    ibi := { addr := a, rnw := true, cnt := 0, kind := 0, data := 0 }
                    work.request :=
                      if s.cfg.bdt[i].ibiden = true ∧ 0 < s.env.params.ibiMax then .data i 0 else .stop (.ibi i) }) ∧
          (s.work.request = .ack 0x02 false →
            requestStep s =
              if s.cfg.hjack then
                { driven (.reqAck true) s with
                  ibi := { addr := 0x02, rnw := false, cnt := 0, kind := 2, data := s.ibi.data }
                  work.request := .stop .hj }
              else refused) ∧
          (a ≠ 0x02 → s.work.request = .ack a false →
            (bdtFind s a = none ∨ (∃ i, bdtFind s a = some i ∧ s.cfg.bdt[i].crack = false) → requestStep s = refused) ∧
              ∀ i, bdtFind s a = some i → s.cfg.bdt[i].crack = true →
                requestStep s =
                  { driven (.reqAck true) s with
                    ibi := { addr := a, rnw := false, cnt := 0, kind := 1, data := s.ibi.data }
                    work.request := .stop .crreq }) ∧
          (s.work.request = .stop .none → requestStep s = stopped) ∧
          (s.work.request = .stop .crreq → requestStep s = notify .crreq stopped) ∧
          (s.work.request = .stop .hj → requestStep s = notify .hj stopped) ∧
          ∀ i : Fin 4, s.work.request = .stop (.ibi i) →
            requestStep s =
              notify .ibi
                { stopped with
                  ctl.suspended :=
                    s.ctl.suspended || (s.cfg.bdt[i].susp && s.ctl.cmdp && decide (s.ctl.pendop = 0x20)) }) ∧
      ∀ (i : Fin 4) (k : Nat), s.work.request = .data i k →
        let last := decide (k + 1 = s.env.params.ibiMax)
        let r := driven (.rbyte false last) s
        (∀ (b : Byte) (more : Bool), Answered (.byte b more) s →
            requestStep s =
              { r with
                ibi.data := s.ibi.data ||| place b (8 * k)
                ibi.cnt := BitVec.ofNat 8 (k + 1)
                work.request := if more = false ∨ last = true then .stop (.ibi i) else .data i (k + 1) }) ∧
          ∀ e ∈ ([.ce0, .ce1, .ce3, .stall] : List ErrCode), Answered (.err e) s →
            (s.ctl.cmdp = true → requestStep s = raiseError e r) ∧
              (s.ctl.cmdp = false → s.ctl.mode = .controller →
                requestStep s =
                  { latchFlag e { r with ctl.recov := s.ctl.recov || decide (e = .ce1) } with work.request := .stop .none })

/-! ## Notification commands -/

/-- NOTIFY_ACTIVATE and NOTIFY_DEACTIVATE: BUSY in RESET or without a mode; INVALID_PARAM for a mask with an id of the other
role, and for N_DEFLIST without a buffer in target role; else the mask is set in, or taken out of, NOTEN, LISTEN is
recomputed, the buffer is taken with N_DEFLIST, PRESULT is OK and nothing else changes (spec/46_events.md R540, R541;
spec/10_state.md R45). That a nonzero SUB is ignored is log entry 16. -/
def Obligations.NotifyCommandsComplete : Prop :=
  ∀ (st : Strat) (sub : Byte) (s : State),
    let mask := s.arg.arg0
    let ids : Word := if s.ctl.mode = .controller then 0xE0 else 0x07FF0000
    let busy := s.ctl.life = .reset ∨ s.ctl.mode = .none
    let foreign := mask &&& ~~~ids ≠ 0
    let listen (n : Word) : Bool := decide (s.ctl.mode = .target ∧ n &&& 0x07FF0000 ≠ 0)
    exec (.notifyActivate st sub) s =
        .next
          (if busy then { s with rep.pcode := 2 }
          else if foreign ∨ (s.ctl.mode = .target ∧ mask.getLsbD 26 = true ∧ (s.arg.arg1 = 0 ∨ s.arg.arg2 = 0)) then
            { s with rep.pcode := 3 }
          else
            { s with
              rep.noten := s.rep.noten ||| mask
              rep.pcode := 0
              ctl.listen := listen (s.rep.noten ||| mask)
              snap.nbufptr := if mask.getLsbD 26 then byteAt s s.arg.arg1.toNat 0 else s.snap.nbufptr
              snap.nbuflen := if mask.getLsbD 26 then s.arg.arg2 else s.snap.nbuflen }) ∧
      exec (.notifyDeactivate st sub) s =
        .next
          (if busy then { s with rep.pcode := 2 }
          else if foreign then { s with rep.pcode := 3 }
          else
            { s with
              rep.noten := s.rep.noten &&& ~~~mask
              rep.pcode := 0
              ctl.listen := listen (s.rep.noten &&& ~~~mask) })

/-- GET_CCC_INFO: BUSY outside target role; in it (and so not in RESET) INVALID_PARAM for an id outside 16..26
or without a pending snapshot; else INFO0 and INFO1 get the snapshot, its pending bit is cleared, PRESULT is OK and nothing
else changes; so a second one for the same id is INVALID_PARAM (spec/46_events.md R546; spec/30_encoding.md R172). That a
nonzero SUB is ignored is the model's choice: log entry 16. -/
def Obligations.GetCccInfoCompletes : Prop :=
  ∀ (st : Strat) (sub : Byte) (s : State),
    (s.ctl.mode ≠ .target → exec (.getCccInfo st sub) s = .next { s with rep.pcode := 2 }) ∧
      (s.ctl.mode = .target → s.ctl.life ≠ .reset →
        (s.arg.arg0.toNat < 16 ∨ 26 < s.arg.arg0.toNat →
            exec (.getCccInfo st sub) s = .next { s with rep.pcode := 3 }) ∧
          ∀ i : Fin 11, s.arg.arg0.toNat = 16 + i.val →
            (s.snap.slots[i].pend = false → exec (.getCccInfo st sub) s = .next { s with rep.pcode := 3 }) ∧
              (s.snap.slots[i].pend = true →
                let r := s.snap.slots[i]
                let t :=
                  { s with
                    snap.info0 :=
                      place r.da 0 ||| place (bit r.dav) 7 ||| place r.rstact 8 ||| place r.act 16 |||
                        place (bit r.enint) 18 ||| place (bit r.encr) 19 ||| place (bit r.enhj) 20
                    snap.info1 := place r.mwl 0 ||| place r.mrl 16
                    snap.slots := s.snap.slots.set i { r with pend := false }
                    rep.pcode := 0 }
                exec (.getCccInfo st sub) s = .next t ∧
                  exec (.getCccInfo st sub) t = .next { t with rep.pcode := 3 }))

/-! ## Control words -/

/-- S_FETCH: the word leaves CFIFO for CUR, CURDONE, EARLY and NACKB are cleared; a legal word goes on to S_ADDR, an illegal
one raises COVR: a CCC word with ARB, with MEND and a direct code, or after a CCC header; a PRIV or I2C word after a CCC
header; a DIRECT word without one or with ARB; a word with a reserved MTYPE or field. With CFIFO empty the step waits while
CTRLREM > 0, and raises COVR where the frame was left open. With SUSPENDED = 1 nothing happens in S_FETCH, with a word at the
head of CFIFO or none, nor in S_ADDR (spec/41_controller.md R285, R286, R291; spec/10_state.md R48; spec/46_events.md R524). -/
def Obligations.WordFetched : Prop :=
  ∀ (mend arb rnw : Bool) (a : Addr7) (code : Byte) (n : BitVec 16) (s : State),
    (s.ctl.suspended = true →
        (s.seq.phase = .fetch ∨ s.seq.phase = .addr →
          ∀ i ∈ [Instr.cwCcc mend arb code n, .cwPriv mend arb a rnw n, .cwI2c mend arb a rnw n,
            .cwDirect mend arb a rnw n], exec i s = .next s) ∧
        (s.seq.phase = .fetch → fetchStep s = .next s)) ∧
    (Sequencing .fetch s →
    let loaded := fun w : Word =>
      { s with
        fifo.cfifo := s.fifo.cfifo.tail, seq.cur := w, seq.curdone := 0, seq.early := false, seq.nackb := false }
    let goes := fun (w : Word) (legal : Bool) =>
      if legal then { loaded w with seq.phase := .addr, work.micro := .start } else raiseError .covr (loaded w)
    exec (.cwCcc mend arb code n) s =
        .next
          (goes (cccWord mend arb code n) (!arb && !(mend && decide (0x80 ≤ code.toNat)) && !s.seq.ccchdr)) ∧
      exec (.cwPriv mend arb a rnw n) s = .next (goes (addrWord 2 mend arb a rnw n) (!s.seq.ccchdr)) ∧
      exec (.cwI2c mend arb a rnw n) s = .next (goes (addrWord 3 mend arb a rnw n) (!s.seq.ccchdr)) ∧
      exec (.cwDirect mend arb a rnw n) s = .next (goes (addrWord 4 mend arb a rnw n) (s.seq.ccchdr && !arb)) ∧
      (∀ (w : Word) (ws : List Word) (e : DecodeError), s.fifo.cfifo = w :: ws → decode .control (bytes32 w) = .error e →
        fetchStep s = .next (goes w false)) ∧
      (s.fifo.cfifo = [] →
        fetchStep s = .next (if s.cnt.ctrlrem = 0 ∧ s.seq.frame = true then raiseError .covr s else s)))

/-- S_ADDR, the message start: with no frame open, START opens one and the header comes next where there is one (always
for CCC, with ARB for PRIV and I2C), a target request that wins the START is handled first and the word stays CUR, to be
started again; in an open frame, and always for DIRECT, a repeated START (spec/41_controller.md R286, R287, R289, R302, R303;
spec/46_events.md R520). That FRAME is 1 while such a request is handled is log entry 10. -/
def Obligations.WordStarts : Prop :=
  ∀ (mend arb rnw : Bool) (a : Addr7) (code : Byte) (n : BitVec 16) (s : State), Sequencing .addr s →
    s.work.micro = .start →
      (∀ row ∈
          ([(.cwCcc mend arb code n, .hdr, .hdr), (.cwPriv mend arb a rnw n, if arb then .hdr else .addr, .addr),
            (.cwI2c mend arb a rnw n, if arb then .hdr else .addr, .addr)] : List (Instr × Micro × Micro)),
          (s.seq.frame = false →
              (Answered .ok s →
                exec row.1 s =
                  .next { driven .start s with seq.frame := true, seq.bws := true, work.micro := row.2.1 }) ∧
                ∀ b w, Answered (.arb b w) s →
                  exec row.1 s = .next { driven .start s with seq.frame := true, work.request := .ack b w }) ∧
            (s.seq.frame = true → Answered .ok s →
              exec row.1 s = .next { driven .rstart s with seq.bws := false, work.micro := row.2.2 })) ∧
        (Answered .ok s →
          exec (.cwDirect mend arb a rnw n) s = .next { driven .rstart s with seq.bws := false, work.micro := .addr })

/-- S_ADDR, header, code and address: an acknowledged header leads to the code, or to the repeated START and then the
address, a NACKed one raises CE2; the CCC code is kept in CCCLAST; an acknowledged address leads to the data, or to the end
where there is none; a NACKed address sets NACKB and raises ANACK; an error answer raises that error; a GETACCCR read of length
0 raises CE3 (spec/41_controller.md R287, R289, R302, R303; spec/46_events.md R530; log entry 21). -/
def Obligations.WordAddressed : Prop :=
  ∀ (mend arb rnw : Bool) (a : Addr7) (code : Byte) (n : BitVec 16) (s : State), Sequencing .addr s →
    let next := fun (ph : SeqPhase) (t : State) =>
      if n = 0 then { t with seq.phase := ph, work.micro := .start }
      else { t with seq.phase := .data, work.micro := .data }
    let kinds : List ErrCode := [.ce0, .ce1, .ce3, .stall]
    let head := driven (.addr 0x7E false) s
    let coded := driven (.wbyte code false) s
    let called := driven (.addr a rnw) s
    (s.work.micro = .hdr →
        ∀ row ∈
          ([(.cwCcc mend arb code n, .code), (.cwPriv mend arb a rnw n, .rstart), (.cwI2c mend arb a rnw n, .rstart)] :
            List (Instr × Micro)),
          (Answered .ack s → exec row.1 s = .next { head with work.micro := row.2 }) ∧
            (Answered .nack s → exec row.1 s = .next (raiseError .ce2 head)) ∧
            ∀ k ∈ kinds, Answered (.err k) s → exec row.1 s = .next (raiseError k head)) ∧
      (s.work.micro = .rstart → Answered .ok s →
        ∀ i ∈ [Instr.cwPriv mend arb a rnw n, .cwI2c mend arb a rnw n],
          exec i s = .next { driven .rstart s with work.micro := .addr }) ∧
      (s.work.micro = .code →
        (Answered .ok s →
            exec (.cwCcc mend arb code n) s =
              .next
                (if code.toNat < 0x80 then next .fin { coded with seq.ccclast := code }
                else if n = 0 then
                  { next .fetch { coded with seq.ccclast := code } with seq.ccchdr := true }
                else next .fetch { coded with seq.ccclast := code })) ∧
          ∀ k ∈ kinds, Answered (.err k) s → exec (.cwCcc mend arb code n) s = .next (raiseError k coded)) ∧
      (s.work.micro = .addr →
        (∀ i ∈ [Instr.cwPriv mend arb a rnw n, .cwI2c mend arb a rnw n, .cwDirect mend arb a rnw n],
            (Answered .nack s → exec i s = .next (raiseError .anack { called with seq.nackb := true })) ∧
              (∀ k ∈ kinds, Answered (.err k) s → exec i s = .next (raiseError k called)) ∧
              (Answered .ack s → ¬(rnw = true ∧ n = 0 ∧ s.seq.ccclast = 0x91 ∧ i = .cwDirect mend arb a rnw n) →
                exec i s =
                  .next
                    (next .fin
                      (if i = .cwDirect mend arb a rnw n then { called with seq.ccchdr := false } else called)))) ∧
          (Answered .ack s → rnw = true → n = 0 → s.seq.ccclast = 0x91 → s.seq.curdone = 0 →
            exec (.cwDirect mend arb a rnw n) s = .next (raiseError .ce3 { called with seq.ccchdr := false })))

/-- S_DATA, a byte written: the head of TXFIFO goes out and is counted, and after the last the word ends, or, for a direct
CCC's broadcast part, the DIRECT word is fetched; with TXFIFO empty the word waits while TXREM > 0 and raises DOVR when
TXREM = 0; a legacy target's NACK raises DNACK and the byte is not counted; an error answer raises that error
(spec/41_controller.md R287, R288, R289, R302, R303; spec/10_state.md R56). -/
def Obligations.WordWritesByte : Prop :=
  ∀ (mend arb : Bool) (a : Addr7) (code : Byte) (n : BitVec 16) (s : State), s.seq.phase = .data →
    ∀ row ∈
      ([(.cwCcc mend arb code n, false, decide (0x80 ≤ code.toNat)), (.cwPriv mend arb a false n, false, false),
        (.cwI2c mend arb a false n, true, false), (.cwDirect mend arb a false n, false, false)] :
        List (Instr × Bool × Bool)),
      (s.fifo.txfifo = [] →
          exec row.1 s = .next (if s.cnt.txrem = 0 then raiseError .dovr s else s)) ∧
        ∀ b bs, s.fifo.txfifo = b :: bs →
          let r := driven (.wbyte b row.2.1) s
          (Answered .ok s →
              let done := s.seq.curdone + 1
              let t := { r with fifo.txfifo := bs, cnt.datacnt := s.cnt.datacnt + 1, seq.curdone := done }
              exec row.1 s =
                .next
                  (if n.toNat ≤ done.toNat then
                    if row.2.2 then { t with seq.phase := .fetch, work.micro := .start, seq.ccchdr := true }
                    else { t with seq.phase := .fin, work.micro := .start }
                  else t)) ∧
            (row.2.1 = true → Answered .nack s → exec row.1 s = .next (raiseError .dnack { r with seq.nackb := true })) ∧
            ∀ k ∈ ([.ce0, .ce1, .ce3, .stall] : List ErrCode), Answered (.err k) s → exec row.1 s = .next (raiseError k r)

/-- S_DATA, a byte read into an RXFIFO with room: it is stored and counted; the last ends the word; an I3C target that has no
more ends it early, and RXREM loses the bytes that will not come; a legacy read goes on whatever the answer says
(spec/41_controller.md R288, R289, R302, R303). At the end of a GETACCCR read, after its last byte or early, the right answer
(the address, and odd parity: an odd number of ones among its eight bits) arms the role handover and a wrong one raises DERR
(spec/46_events.md R530). -/
def Obligations.WordReadsByte : Prop :=
  ∀ (mend arb : Bool) (a : Addr7) (n : BitVec 16) (b : Byte) (more : Bool) (s : State), s.seq.phase = .data →
    s.work.rxHold = none → s.fifo.rxfifo.length < s.env.params.rxfifoDepth → Answered (.byte b more) s →
      let done := s.seq.curdone + 1
      let last := decide (n.toNat ≤ s.seq.curdone.toNat + 1)
      let stored := fun i2c : Bool =>
        { driven (.rbyte i2c last) s with
          fifo.rxfifo := s.fifo.rxfifo ++ [b]
          work.lastRx := b
          work.rxHold := none
          cnt.datacnt := s.cnt.datacnt + 1
          seq.curdone := done }
      let closed := fun t : State => { t with seq.phase := .fin, work.micro := .start }
      let short := fun t : State =>
        { t with seq.early := true, cnt.rxrem := s.cnt.rxrem - (n - done).setWidth 32 }
      let ends := fun close : State → State =>
        if n.toNat ≤ done.toNat then close (stored false)
        else if more then stored false
        else close (short (stored false))
      let odd := (List.range 8).countP (fun i => b.getLsbD i) % 2 = 1
      let checked := fun t : State =>
        if bitField b 1 7 = a ∧ odd then { closed t with seq.handover := true } else raiseError .derr t
      exec (.cwPriv mend arb a true n) s = .next (ends closed) ∧
        exec (.cwI2c mend arb a true n) s = .next (if n.toNat ≤ done.toNat then closed (stored true) else stored true) ∧
        (s.seq.ccclast ≠ 0x91 → exec (.cwDirect mend arb a true n) s = .next (ends closed)) ∧
        (s.seq.ccclast = 0x91 → done ≠ 0 → exec (.cwDirect mend arb a true n) s = .next (ends checked))

/-- S_DATA, a byte read while RXFIFO is full: it is held while the MOVER can still make room (fewer bytes stored than RXREM),
and raises DOVR when it cannot; a held byte is tried again without a new request, and once there is room it is stored as if it
had just come, with the check of a GETACCCR read at its end (the address, and an odd number of ones). An error answer raises
that error (spec/41_controller.md R288, R289; spec/46_events.md R530). -/
def Obligations.WordReadHeld : Prop :=
  ∀ (mend arb : Bool) (a : Addr7) (n : BitVec 16) (b : Byte) (more : Bool) (s : State), s.seq.phase = .data →
    ∀ row ∈
      ([(.cwPriv mend arb a true n, false, false), (.cwI2c mend arb a true n, true, false),
        (.cwDirect mend arb a true n, false, decide (s.seq.ccclast = 0x91))] : List (Instr × Bool × Bool)),
      let full := s.env.params.rxfifoDepth ≤ s.fifo.rxfifo.length
      let waits := s.fifo.rxfifo.length < s.cnt.rxrem.toNat
      let r := driven (.rbyte row.2.1 (decide (n.toNat ≤ s.seq.curdone.toNat + 1))) s
      let done := s.seq.curdone + 1
      let stored :=
        { s with
          fifo.rxfifo := s.fifo.rxfifo ++ [b]
          work.lastRx := b
          work.rxHold := none
          cnt.datacnt := s.cnt.datacnt + 1
          seq.curdone := done }
      let odd := (List.range 8).countP (fun i => b.getLsbD i) % 2 = 1
      let shut := fun t : State => { t with seq.phase := .fin, work.micro := .start }
      let closed := fun t : State =>
        if row.2.2 then
          if bitField b 1 7 = a ∧ odd then { shut t with seq.handover := true } else raiseError .derr t
        else shut t
      (s.work.rxHold = none →
          (full → Answered (.byte b more) s →
              exec row.1 s = .next (if waits then { r with work.rxHold := some (b, more) } else raiseError .dovr r)) ∧
            ∀ k ∈ ([.ce0, .ce1, .ce3, .stall] : List ErrCode), Answered (.err k) s →
              exec row.1 s = .next (raiseError k r)) ∧
        (s.work.rxHold = some (b, more) →
          (full → exec row.1 s = .next (if waits then s else raiseError .dovr s)) ∧
            (¬full → (row.2.2 = true → done ≠ 0) →
              exec row.1 s =
                .next
                  (if n.toNat ≤ done.toNat then closed stored
                  else if row.2.1 = true ∨ more = true then stored
                  else closed { stored with seq.early := true, cnt.rxrem := s.cnt.rxrem - (n - done).setWidth 32 })))

/-- S_END of a word that ends a descriptor (PRIV, I2C, DIRECT, a broadcast CCC): a full SFIFO under SFEN raises COVR;
otherwise under SFEN a status word is pushed: XDCNT is CURDONE (of a DIRECT word its own bytes alone: log entry 41), RNW (0
for a CCC word: log entry 20), EARLY, NACK, MID = MSGCNT[7:0]; MSGCNT counts the descriptor, MEND ends the frame with STOP;
with words left the next is fetched; with none left and no frame open, and every rx byte drained, at once or at a later step,
the transfer completes: TXFIFO and CFIFO flushed (log entry 19), STATE IDLE, XFER_DONE flagged, OK with MSGCNT, and MODE
becomes TARGET where a handover is due (spec/41_controller.md R290, spec/46_events.md R530, spec/30_encoding.md R190). That
LISTEN is recomputed there is log entry 18. -/
def Obligations.WordEnds : Prop :=
  ∀ (mend arb rnw : Bool) (a : Addr7) (code : Byte) (n : BitVec 16) (s : State), s.seq.phase = .fin →
    code.toNat < 0x80 →
      let completed := fun t : State =>
        let c :=
          endedWith 0 0 t.cnt.msgcnt
            { t with fifo.txfifo := [], fifo.cfifo := [], cnt.txrem := 0, seq.phase := .idle, work.micro := .start }
        if s.seq.handover then
          { c with
            seq.handover := false
            ctl.mode := .target
            tgt.phase := .idle
            ctl.listen := decide (s.rep.noten &&& 0x07FF0000 ≠ 0) }
        else c
      ∀ row ∈
        ([(.cwCcc mend arb code n, cccWord mend arb code n, false),
          (.cwPriv mend arb a rnw n, addrWord 2 mend arb a rnw n, rnw),
          (.cwI2c mend arb a rnw n, addrWord 3 mend arb a rnw n, rnw),
          (.cwDirect mend arb a rnw n, addrWord 4 mend arb a rnw n, rnw)] : List (Instr × Word × Bool)),
        s.seq.cur = row.2.1 →
          (s.work.micro = .start → Answered .ok s →
              let full := s.cfg.sfen = true ∧ s.env.params.sfifoDepth ≤ s.fifo.sfifo.length
              let status : Word :=
                place s.seq.curdone 0 ||| place (bit row.2.2) 16 ||| place (bit s.seq.early) 17 |||
                  place (bit s.seq.nackb) 18 ||| place (bitField s.cnt.msgcnt 0 8) 24
              let stopped := if mend then { driven .stop s with seq.frame := false } else s
              let t :=
                { stopped with
                  fifo.sfifo := if s.cfg.sfen then s.fifo.sfifo ++ [status] else s.fifo.sfifo
                  cnt.msgcnt := s.cnt.msgcnt + 1 }
              let none_left := s.cnt.ctrlrem = 0 ∧ s.fifo.cfifo = [] ∧ t.seq.frame = false
              (full → exec row.1 s = .next (raiseError .covr s)) ∧
                (¬full → ¬none_left → exec row.1 s = .next { t with seq.phase := .fetch, work.micro := .start }) ∧
                (¬full → none_left → s.cnt.rxrem ≠ 0 → exec row.1 s = .next { t with work.micro := .drain }) ∧
                (¬full → none_left → s.cnt.rxrem = 0 → exec row.1 s = .next (completed t))) ∧
            (s.work.micro = .drain → exec row.1 s = .next (if s.cnt.rxrem = 0 then completed s else s))

/-! ## CCCs in target role -/

/-- A CCC code received in T_CCC becomes CCCCUR, CCCN and DEFV are cleared, and the target expects data (a broadcast code)
or the direct address (a direct code); nothing else changes. An undefined code latches TE1 with PERR and sets IGNSTOP, in T_IGNORE
or, for a direct one, in T_DIRECT, where no later byte counts (log entry 46); an unsupported one is ignored, or waits, with no
error. A data byte is collected in CCCBUF, a ninth is TE5 and the target ignores the bus; the defining byte of a direct
code is kept in DEFBYTE, a second is TE5; a byte in T_IDLE, T_ADDR, T_PRIV_R or T_DIRECT_R is TE5
(spec/45_ccc_decoder.md R460, R461, R463, R475, R477; spec/44_target.md R429; spec/30_encoding.md R215). PERR with TE1 and TE5
is log entry 13; bytes in other phases, log entry 15. -/
def Obligations.CccCodesReceived : Prop :=
  ∀ (b : Byte) (s : State), Takes (.byte b) s →
    let broadcast : List (Instr × Byte) :=
      [(.enecB, 0x00), (.disecB, 0x01), (.entas0B, 0x02), (.entas1B, 0x03), (.entas2B, 0x04), (.entas3B, 0x05),
        (.rstdaaB, 0x06), (.setmwlB, 0x09), (.setmrlB, 0x0A), (.rstactB, 0x2A)]
    let writes : List (Instr × Byte) :=
      [(.enecD, 0x80), (.disecD, 0x81), (.entas0D, 0x82), (.entas1D, 0x83), (.entas2D, 0x84), (.entas3D, 0x85),
        (.rstdaaD, 0x86), (.setdasaCcc, 0x87), (.setnewda, 0x88), (.setmwlD, 0x89), (.setmrlD, 0x8A), (.rstactD, 0x9A)]
    let reads : List (Instr × Byte) :=
      [(.getmwl, 0x8B), (.getmrl, 0x8C), (.getpid, 0x8D), (.getbcr, 0x8E), (.getdcr, 0x8F), (.getstatus, 0x90),
        (.getacccr, 0x91)]
    let bad := { detect .te5 s with tgt.phase := .ignore }
    let received := fun (t : State) (c : Byte) (p : TgtPhase) =>
      { t with tgt.ccccur := c, tgt.cccbuf := [], tgt.defv := false, tgt.phase := p }
    let within := fun lo hi : Nat => lo ≤ b.toNat ∧ b.toNat ≤ hi
    let cur := s.tgt.ccccur.toNat
    let curUndefined := (0x9E ≤ cur ∧ cur ≤ 0xDF) ∨ cur = 0xFF
    let undefinedB := within 0x0D 0x11 ∨ within 0x13 0x1F ∨ within 0x2E 0x60
    let undefinedD := within 0x9E 0xDF ∨ b = 0xFF
    let unsupportedB := within 0x0B 0x0C ∨ b = 0x12 ∨ within 0x28 0x29 ∨ within 0x2C 0x2D ∨ within 0x61 0x7F
    let unsupportedD := within 0x92 0x99 ∨ within 0x9B 0x9D ∨ within 0xE0 0xFE
    let collected :=
      if 8 ≤ s.tgt.cccbuf.length then bad else { s with tgt.cccbuf := s.tgt.cccbuf ++ [b] }
    let defining := if s.tgt.defv then bad else { s with tgt.defbyte := b, tgt.defv := true }
    (s.tgt.phase = .ccc →
        (∀ row ∈ broadcast ++ writes ++ reads,
            exec row.1 s = .next (received s row.2 (if row.2.toNat < 0x80 then .cccData else .direct))) ∧
          (undefinedB → targetEvent (.byte b) s = .next { received (detect .te1 s) b .ignore with tgt.ignstop := true }) ∧
          (undefinedD → targetEvent (.byte b) s = .next { received (detect .te1 s) b .direct with tgt.ignstop := true }) ∧
          (unsupportedB → targetEvent (.byte b) s = .next { received s b .ignore with tgt.ignstop := false }) ∧
          (unsupportedD → targetEvent (.byte b) s = .next (received s b .direct))) ∧
      (s.tgt.phase = .cccData → ∀ row ∈ broadcast, exec row.1 s = .next collected) ∧
      (s.tgt.phase = .directW → ∀ row ∈ writes, exec row.1 s = .next collected) ∧
      (s.tgt.phase = .direct →
        (∀ row ∈ writes ++ reads, exec row.1 s = .next defining) ∧
          (curUndefined → s.tgt.ignstop = true → targetEvent (.byte b) s = .next s) ∧
          ∀ e, decode .ccc [s.tgt.ccccur] = .error e → s.tgt.ignstop = false ∨ (0x80 ≤ cur ∧ ¬curUndefined) →
            targetEvent (.byte b) s = .next defining) ∧
      (s.tgt.phase ∈ ([.idle, .addr, .privR, .directR] : List TgtPhase) → targetEvent (.byte b) s = .next bad) ∧
      (s.tgt.phase = .ignore ∨ s.tgt.phase = .daa → targetEvent (.byte b) s = .next s)

/-- ENEC and DISEC, broadcast and direct, at the frame event that ends their data: exactly one byte sets or clears the
grants its bits name (bit 0 IBI, bit 1 role request, bit 3 hot-join) and notifies N_EVENT; any other number of bytes is
TE5 and nothing else; a hot-join that waits for its address while hot-join becomes disabled ends REFUSED
(spec/45_ccc_decoder.md R461, R464, R465, R488; spec/44_target.md R426). That START ends the data and that the hot-join
ends in this step are log entries 31 and 27. -/
def Obligations.EventCccs : Prop :=
  ∀ (e : PhyEvent) (s : State), e = .start ∨ e = .rstart ∨ e = .stop → Takes e s →
    let b := s.tgt.cccbuf.headD 0
    let enabled :=
      notify .nEvent
        { s with
          tst.enint := s.tst.enint || b.getLsbD 0
          tst.encr := s.tst.encr || b.getLsbD 1
          tst.enhj := s.tst.enhj || b.getLsbD 3 }
    let cleared :=
      notify .nEvent
        { s with
          tst.enint := s.tst.enint && !b.getLsbD 0
          tst.encr := s.tst.encr && !b.getLsbD 1
          tst.enhj := s.tst.enhj && !b.getLsbD 3 }
    let disabled :=
      if s.tgt.trq = .hjWaitDaa ∧ (s.tst.enhj && !b.getLsbD 3) = false then
        endedWith 9 5 0 { cleared with tgt.trq := .none }
      else cleared
    let en := if s.tgt.cccbuf.length = 1 then enabled else detect .te5 s
    let dis := if s.tgt.cccbuf.length = 1 then disabled else detect .te5 s
    (s.tgt.phase = .cccData →
        exec .enecB s = .next (frameEvent e { en with tgt.ccccur := 0 }) ∧
          exec .disecB s = .next (frameEvent e { dis with tgt.ccccur := 0 })) ∧
      (s.tgt.phase = .directW →
        exec .enecD s = .next (frameEvent e en) ∧ exec .disecD s = .next (frameEvent e dis))

/-- ENTAS0..3, SETMWL, SETMRL and RSTACT, broadcast and direct, at the frame event that ends their data: with the
number of bytes each takes (none; two; two or three; one, or none after a defining byte) they set the activity state,
MWL, MRL or RSTACT, most significant byte first, and notify; any other number is TE5 and nothing else
(spec/45_ccc_decoder.md R461, R466, R470, R471, R473). That START ends the data is log entry 31. -/
def Obligations.RegisterCccs : Prop :=
  ∀ (e : PhyEvent) (s : State), e = .start ∨ e = .rstart ∨ e = .stop → Takes e s →
    let n := s.tgt.cccbuf.length
    let len : BitVec 16 := s.tgt.cccbuf.headD 0 ++ (s.tgt.cccbuf.drop 1).headD 0
    let bad := detect .te5 s
    let as := fun k : BitVec 2 => if n = 0 then notify .nActState { s with tst.act := k } else bad
    let mwl := if n = 2 then notify .nMaxLen { s with cfg.mwl := len } else bad
    let mrl := if n = 2 ∨ n = 3 then notify .nMaxLen { s with cfg.mrl := len } else bad
    let actB := if n = 1 then notify .nRstAct { s with tst.rstact := s.tgt.cccbuf.headD 0 } else bad
    let actD := if n = 0 ∧ s.tgt.defv = true then notify .nRstAct { s with tst.rstact := s.tgt.defbyte } else bad
    (s.tgt.phase = .cccData →
        ∀ row ∈
          ([(.entas0B, as 0), (.entas1B, as 1), (.entas2B, as 2), (.entas3B, as 3), (.setmwlB, mwl), (.setmrlB, mrl),
            (.rstactB, actB)] : List (Instr × State)),
          exec row.1 s = .next (frameEvent e { row.2 with tgt.ccccur := 0 })) ∧
      (s.tgt.phase = .directW →
        ∀ row ∈
          ([(.entas0D, as 0), (.entas1D, as 1), (.entas2D, as 2), (.entas3D, as 3), (.setmwlD, mwl), (.setmrlD, mrl),
            (.rstactD, actD)] : List (Instr × State)),
          exec row.1 s = .next (frameEvent e row.2))

/-- RSTDAA, SETDASA and SETNEWDA at the frame event that ends their data: RSTDAA without data drops the own address;
SETDASA and SETNEWDA with one byte take a valid new address from its bits 7:1 (SETDASA marks it valid and completes a
hot-join that waits) and notify N_DAUPD, and latch DYNADDR for an invalid one; any other number of bytes is TE5
(spec/45_ccc_decoder.md R461, R467, R469, R472; spec/44_target.md R426). That START ends the data and that the hot-join
ends in this step are log entries 31 and 27; that SETNEWDA with DAV = 0 writes DA, leaves DAV 0 and notifies all the same is the
model's choice: log entry 45. -/
def Obligations.AddressCccs : Prop :=
  ∀ (e : PhyEvent) (s : State), e = .start ∨ e = .rstart ∨ e = .stop → Takes e s →
    let na : Addr7 := bitField (s.tgt.cccbuf.headD 0) 1 7
    let bad := detect .te5 s
    let dropped := if s.tgt.cccbuf = [] then notify .nDaUpd { s with cfg.da := 0, cfg.dav := false } else bad
    let taken := notify .nDaUpd { s with cfg.da := na, cfg.dav := true }
    let joined := if s.tgt.trq = .hjWaitDaa then endedWith 9 0 (na.setWidth 16) { taken with tgt.trq := .none } else taken
    let one := fun t : State =>
      if s.tgt.cccbuf.length = 1 then if validDa na = true then t else latchFlag .dynaddr s else bad
    (s.tgt.phase = .cccData → exec .rstdaaB s = .next (frameEvent e { dropped with tgt.ccccur := 0 })) ∧
      (s.tgt.phase = .directW →
        exec .rstdaaD s = .next (frameEvent e dropped) ∧
          exec .setdasaCcc s = .next (frameEvent e (one joined)) ∧
          exec .setnewda s = .next (frameEvent e (one (notify .nDaUpd { s with cfg.da := na }))))

/-- A direct CCC addressed to this target. The wrong direction latches TE5 and is NACKed, a code that is not ready (SETDASA
with an address held, GETACCCR of an incapable or unaddressed target) is NACKed; otherwise the address is acknowledged, and a
read has its response built: GETMWL and GETMRL the lengths, GETPID, GETBCR, GETDCR the characteristics, GETSTATUS the status
word, GETACCCR the own address with odd parity (bit 0 is 1 where the number of ones in the address is even), RSTACT one 0
byte (spec/45_ccc_decoder.md R462, R469, R473, R480–R486). PERR is set with TE5: log entry 13. -/
def Obligations.DirectCccAddressed : Prop :=
  ∀ (a : Addr7) (rnw : Bool) (s : State), Takes (.addr a rnw) s → s.tgt.phase = .addr →
    let nacked := fun t : State => { t with env.bus := .answer false :: t.env.bus, tgt.phase := .ignore }
    let acked := fun (p : TgtPhase) (buf : List Byte) =>
      { s with env.bus := .answer true :: s.env.bus, tgt.phase := p, tgt.cccbuf := buf }
    let pid : BitVec 48 := s.cfg.pid1 ++ s.cfg.pid0
    let da : Byte := s.cfg.da ++ 0#1
    let capable := bitField s.cfg.bcr 6 2 = 1 ∧ s.cfg.dav = true
    let odd := (List.range 7).countP (fun i => s.cfg.da.getLsbD i) % 2 = 1
    let third := if s.cfg.bcr.getLsbD 2 then [BitVec.ofNat 8 s.env.params.ibiMax] else []
    (∀ row ∈
        ([(.enecD, true), (.disecD, true), (.entas0D, true), (.entas1D, true), (.entas2D, true), (.entas3D, true),
          (.rstdaaD, true), (.setdasaCcc, !s.cfg.dav), (.setnewda, true), (.setmwlD, true), (.setmrlD, true)] :
          List (Instr × Bool)),
        exec row.1 s =
          .next (if rnw then nacked (detect .te5 s) else if row.2 then acked .directW [] else nacked s)) ∧
      (∀ row ∈
        ([(.getmwl, True, [bitField s.cfg.mwl 8 8, bitField s.cfg.mwl 0 8]),
          (.getmrl, True, [bitField s.cfg.mrl 8 8, bitField s.cfg.mrl 0 8] ++ third),
          (.getpid, True,
            [bitField pid 40 8, bitField pid 32 8, bitField pid 24 8, bitField pid 16 8, bitField pid 8 8,
              bitField pid 0 8]),
          (.getbcr, True, [s.cfg.bcr]), (.getdcr, True, [s.cfg.dcr]),
          (.getstatus, True, [0, s.tst.act ++ BitVec.ofBool s.tst.perr ++ 0#5]),
          (.getacccr, capable, [if odd then da else da ||| 1])] :
          List (Instr × Prop × List Byte)),
        (rnw = false → exec row.1 s = .next (nacked (detect .te5 s))) ∧
          (rnw = true → ¬row.2.1 → exec row.1 s = .next (nacked s)) ∧
          (rnw = true → row.2.1 → exec row.1 s = .next { acked .directR row.2.2 with tgt.rspk := 0 })) ∧
      exec .rstactD s = .next (if rnw then { acked .directR [0] with tgt.rspk := 0 } else acked .directW [])

/-- A GET response byte: the ENGINE drives byte RSPK of the response; taken, RSPK moves on, and after the last the target
ignores the bus until the next Sr or STOP and the CCC's own effect follows: N_GET for the seven GET codes, then
N_GETSTATUS with PERR cleared for GETSTATUS, then HANDOFF for GETACCCR, and N_RSTACT alone for RSTACT; a read the controller
ends early has no effect; an error answer, TE6 or STALL, enters the target error entry (spec/45_ccc_decoder.md R479, R473, R486;
spec/60_exceptions.md R575). -/
def Obligations.GetResponsesSent : Prop :=
  ∀ s : State, s.tgt.phase = .directR →
    let b := s.tgt.cccbuf.getD s.tgt.rspk.toNat 0
    let last := decide (s.tgt.rspk.toNat + 1 = s.tgt.cccbuf.length)
    let d := driven (.tbyte b last) s
    let t := { d with tgt.rspk := s.tgt.rspk + 1 }
    let u := { t with tgt.phase := .ignore, tgt.ignstop := false }
    let sent := notify .nGet u
    ∀ row ∈
      ([(.getmwl, sent), (.getmrl, sent), (.getpid, sent), (.getbcr, sent), (.getdcr, sent),
        (.getstatus, { notify .nGetStatus sent with tst.perr := false }), (.getacccr, { sent with tgt.handoff := true }),
        (.rstactD, notify .nRstAct u)] : List (Instr × State)),
      (Answered .ok s → exec row.1 s = .next (if last then row.2 else t)) ∧
        (Answered .stopped s → exec row.1 s = .next { d with tgt.phase := .ignore, tgt.ignstop := false }) ∧
        ∀ k ∈ ([.te6, .stall] : List ErrCode), Answered (.err k) s → exec row.1 s = .next (targetError k d)

/-- DEFTGTS and DEFGRPA: the code notifies N_DEFLIST where it is enabled; a data byte is discarded while N_DEFLIST is
not enabled, is written at NBUFPTR while there is room (NBUFPTR and NBUFLEN move on, no other byte of memory changes; a memory
fault latches DMA and discards it: log entry 38 for DMA errors), and with no room left latches DOVR, once per CCC (log entry
24); the end of the CCC only ends it (spec/45_ccc_decoder.md R460, R478). That START ends the CCC is log entry 31. -/
def Obligations.ListCccs : Prop :=
  ∀ (b : Byte) (s : State), ∀ row ∈ ([(.deftgts, 0x08), (.defgrpa, 0x2B)] : List (Instr × Byte)),
    (s.tgt.phase = .ccc → Takes (.byte b) s →
        exec row.1 s =
          .next
            (notify .nDefList
              { s with
                tgt.ccccur := row.2
                tgt.cccbuf := []
                tgt.defv := false
                tgt.phase := .cccData
                work.listOvr := false })) ∧
      (s.tgt.phase = .cccData → Takes (.byte b) s →
        exec row.1 s =
          .next
            (if s.rep.noten.getLsbD 26 = false then s
            else if s.snap.nbuflen = 0 then
              if s.work.listOvr then s else latchFlag .dovr { s with work.listOvr := true }
            else if writable s (byteAt s s.snap.nbufptr 0) = false then latchFlag .dma s
            else
              { s with
                mem := Memory.write s.mem (byteAt s s.snap.nbufptr 0) b
                snap.nbufptr := byteAt s s.snap.nbufptr 1
                snap.nbuflen := s.snap.nbuflen - 1 })) ∧
      (s.tgt.phase = .cccData → ∀ e, e = .start ∨ e = .rstart ∨ e = .stop → Takes e s →
        exec row.1 s = .next (frameEvent e { s with tgt.ccccur := 0 }))

/-- ENTDAA: a target with an address ignores the bus until STOP, one without takes part: at Sr + 0x7E/R it offers its
own payload, and a valid address it is given becomes its own, is notified, completes a hot-join that waits (RESULT.AUX
is the address), and the target ignores the rest; an invalid one latches DYNADDR. ENTHDR0-7: the target ignores the bus
until STOP: no other event changes anything (an address is answered NACK), and STOP ends it
(spec/45_ccc_decoder.md R468, R476; spec/44_target.md R426; spec/30_encoding.md R217). That the hot-join ends in this step is
log entry 27; that the offer is an output, log entry 33; what is ignored after ENTHDR, log entry 47. -/
def Obligations.EntdaaEnthdr : Prop :=
  ∀ (b : Byte) (a : Addr7) (w : Bool) (h : BitVec 3) (k : ErrCode) (s : State),
    (s.tgt.phase = .ccc → Takes (.byte b) s →
        let received := fun c : Byte => { s with tgt.ccccur := c, tgt.cccbuf := [], tgt.defv := false }
        exec .entdaa s =
            .next
              (if s.cfg.dav = true then { received 0x07 with tgt.phase := .ignore, tgt.ignstop := true }
              else { received 0x07 with tgt.phase := .daa }) ∧
          exec (.enthdr h) s =
            .next { received (0x20 + h.setWidth 8) with tgt.phase := .ignore, tgt.ignstop := true }) ∧
      (s.tgt.phase = .ignore → s.tgt.ignstop = true → s.tgt.ccccur = 0x20 + h.setWidth 8 →
        (∀ e ∈ ([.start, .rstart, .byte b, .daaSr, .da a, .resetPattern, .wakeup, .err k] : List PhyEvent),
            targetEvent e s = .next s) ∧
          targetEvent (.addr a w) s = .next { s with env.bus := .answer false :: s.env.bus } ∧
          targetEvent .stop s = .next (frameEvent .stop s)) ∧
      (s.tgt.phase = .daa → Takes .daaSr s →
        exec .entdaa s =
          .next
            { s with
              env.bus := .offer (s.cfg.pid1 ++ s.cfg.pid0 ++ s.cfg.bcr ++ s.cfg.dcr : BitVec 64) :: s.env.bus }) ∧
      (s.tgt.phase = .daa → Takes (.da a) s →
        let taken := notify .nDaUpd { s with cfg.da := a, cfg.dav := true }
        exec .entdaa s =
          .next
            (if validDa a = false then latchFlag .dynaddr s
            else if s.tgt.trq = .hjWaitDaa then
              { endedWith 9 0 (a.setWidth 16) { taken with tgt.trq := .none } with
                tgt.trq := .none, tgt.phase := .ignore, tgt.ignstop := true }
            else { taken with tgt.phase := .ignore, tgt.ignstop := true }))

/-- START, a repeated START and STOP in target role: the phase they lead to, CCCCUR and IGNSTOP; the first two are ignored
while the target ignores the bus until STOP, also in T_DIRECT after an undefined code (log entry 46); at a STOP after a
GETACCCR answered (HANDOFF = 1) MODE becomes CONTROLLER, N_GETACCCR is notified, LISTEN is recomputed, a pending CR_REQ
finishes with OK, any other pending command ABORTED (log entry 18; TREQ_DONE for a target request: log entry 44). The reset
pattern notifies N_RSTACT and clears RSTACT, a wakeup notifies N_WAKEUP, an error kind the PHY may deliver enters the target
error entry, each but after ENTHDR (log entry 47) (spec/44_target.md R424, R432; spec/45_ccc_decoder.md R474;
spec/60_exceptions.md R575; spec/10_state.md R45). -/
def Obligations.FrameEvents : Prop :=
  ∀ s : State,
    let hdr :=
      s.tgt.phase = .ignore ∧ s.tgt.ignstop = true ∧ 0x20 ≤ s.tgt.ccccur.toNat ∧ s.tgt.ccccur.toNat ≤ 0x27
    let cur := s.tgt.ccccur.toNat
    let undefinedCode := (0x9E ≤ cur ∧ cur ≤ 0xDF) ∨ cur = 0xFF
    frameEvent .start s = { s with tgt.phase := .addr, tgt.ccccur := 0 } ∧
      frameEvent .rstart s = { s with tgt.phase := .addr } ∧
      (∀ e ∈ ([.start, .rstart] : List PhyEvent), s.tgt.ignstop = true →
        s.tgt.phase = .ignore ∨ (s.tgt.phase = .direct ∧ undefinedCode) → targetEvent e s = .next s) ∧
      (∀ e ∈ ([.start, .rstart, .stop] : List PhyEvent),
        s.tgt.phase ∉ ([.ignore, .privW, .privR, .cccData, .directW, .direct] : List TgtPhase) ∨
            (s.tgt.phase = .ignore ∧ (s.tgt.ignstop = false ∨ e = .stop)) ∨
            (s.tgt.phase = .direct ∧ (s.tgt.ignstop = false ∨ e = .stop ∨ (0x80 ≤ cur ∧ ¬undefinedCode))) →
          targetEvent e s = .next (frameEvent e s)) ∧
      (¬hdr →
        targetEvent .resetPattern s =
            .next { notify .nRstAct { s with tgt.phase := .idle, tgt.ccccur := 0 } with tst.rstact := 0 } ∧
          targetEvent .wakeup s = .next (notify .nWakeup s) ∧
          ∀ k, targetEvent (.err k) s =
            .next (if k ∈ ([.te2, .te3, .te4, .te6, .stall] : List ErrCode) then targetError k s else s)) ∧
      (s.tgt.handoff = false →
        frameEvent .stop s = { s with tgt.phase := .idle, tgt.ccccur := 0, tgt.ignstop := false }) ∧
      (s.tgt.handoff = true →
        let n :=
          notify .nGetacccr
            { s with
              ctl.mode := .controller
              tgt.phase := .idle
              tgt.ccccur := 0
              tgt.ignstop := false
              tgt.handoff := false
              tgt.trq := .none }
        let t := { n with ctl.listen := false }
        let aborted :=
          { t with
            ctl.life := .idle
            ctl.cmdp := false
            ctl.tmo := false
            rep.code := 7
            rep.aux := bitField s.cnt.datacnt 0 16
            rep.reserr := s.rep.callerr }
        (s.ctl.cmdp = false → frameEvent .stop s = t) ∧
          (s.ctl.cmdp = true →
            (s.ctl.pendop = 0x33 → frameEvent .stop s = endedWith 9 0 0 t) ∧
              (s.ctl.pendop = 0x32 ∨ s.ctl.pendop = 0x34 →
                frameEvent .stop s = { aborted with rep.isr := t.rep.isr ||| 0x200#32 }) ∧
              (s.ctl.pendop ∉ ([0x32, 0x33, 0x34] : List Byte) → frameEvent .stop s = aborted)))
end

