-- ==== Sys2Proof/Laws/Encoding.lean ====
section
/-! SUPPORT. The fields that the word builders put into a word, and the bytes of a word (spec/20_memory.md R132,
spec/30_encoding.md R170, R180): what the decoder reads back. -/

namespace Sys2Proof

/-- The bytes of a word, put together again. -/
theorem le32_bytes32 (w : Word) : le32 (bitField w 0 8) (bitField w 8 8) (bitField w 16 8) (bitField w 24 8) = w := by
  unfold le32 bitField place
  ext i hi
  interval_cases i <;> simp

/-- The bytes that make a word are its bytes. -/
theorem bytes32_le32 (b0 b1 b2 b3 : Byte) : bytes32 (le32 b0 b1 b2 b3) = [b0, b1, b2, b3] := by
  unfold bytes32 le32 bitField place
  simp only [List.cons.injEq, and_true]
  refine ⟨?_, ?_, ?_, ?_⟩ <;> (ext i hi; interval_cases i <;> simp)

/-- The fields of a control word with an address (spec/30_encoding.md R180). -/
theorem addrWord_fields (m : BitVec 4) (mend arb : Bool) (addr : Addr7) (rnw : Bool) (dcnt : BitVec 16) :
    bitField (addrWord m mend arb addr rnw dcnt) 24 2 = 0#2 ∧ bitField (addrWord m mend arb addr rnw dcnt) 27 4 = m ∧
      (addrWord m mend arb addr rnw dcnt).getLsbD 31 = mend ∧ (addrWord m mend arb addr rnw dcnt).getLsbD 26 = arb ∧
      bitField (addrWord m mend arb addr rnw dcnt) 17 7 = addr ∧ (addrWord m mend arb addr rnw dcnt).getLsbD 16 = rnw ∧
      bitField (addrWord m mend arb addr rnw dcnt) 0 16 = dcnt := by
  unfold bitField addrWord bit place
  refine ⟨?_, ?_, ?_, ?_, ?_, ?_, ?_⟩
  all_goals try (ext i hi; interval_cases i <;> simp)
  all_goals simp

/-- The fields of a CCC control word (spec/30_encoding.md R180). -/
theorem cccWord_fields (mend arb : Bool) (code : Byte) (dcnt : BitVec 16) :
    bitField (cccWord mend arb code dcnt) 24 2 = 0#2 ∧ bitField (cccWord mend arb code dcnt) 27 4 = 1#4 ∧
      (cccWord mend arb code dcnt).getLsbD 31 = mend ∧ (cccWord mend arb code dcnt).getLsbD 26 = arb ∧
      bitField (cccWord mend arb code dcnt) 16 8 = code ∧ bitField (cccWord mend arb code dcnt) 0 16 = dcnt := by
  unfold bitField cccWord bit place
  refine ⟨?_, ?_, ?_, ?_, ?_, ?_⟩
  all_goals try (ext i hi; interval_cases i <;> simp)
  all_goals simp

/-- The fields of a write of CMD (spec/30_encoding.md R170). -/
theorem cmdWord_fields (op : Byte) (st : Strat) (sub : Byte) :
    bitField (cmdWord op st sub) 10 6 = 0#6 ∧ bitField (cmdWord op st sub) 24 8 = 0#8 ∧
      bitField (cmdWord op st sub) 8 2 = stratBits st ∧ bitField (cmdWord op st sub) 0 8 = op ∧
      bitField (cmdWord op st sub) 16 8 = sub := by
  unfold bitField cmdWord place
  generalize stratBits st = b
  refine ⟨?_, ?_, ?_, ?_, ?_⟩
  all_goals (ext i hi; interval_cases i <;> simp)

/-- A strategy is read back from its bits. -/
theorem stratOf_stratBits (st : Strat) : stratOf (stratBits st) = some st := by cases st <;> rfl

/-- The bits a strategy is read from are its bits. -/
theorem stratBits_of_stratOf {v : BitVec 2} {st : Strat} (h : stratOf v = some st) : stratBits st = v := by
  revert h; revert v; cases st <;> decide

end Sys2Proof
end

