-- ==== Sys2Proof/Laws/Memory.lean ====
section
/-! SUPPORT. The laws of system memory: what a read finds after a write, and that every memory operation keeps the canonical
form (log entry 4). -/

namespace Sys2Proof.Machine

/-- A looser lower bound for the same list. -/
theorem Memory.wfFrom_weaken {top lo lo' : Nat} (h : lo ≤ lo') : ∀ {m : Memory}, Memory.wfFrom top lo' m = true → Memory.wfFrom top lo m = true
  | [], _ => rfl
  | (x, b) :: r, hm => by
    simp only [Memory.wfFrom, Bool.and_eq_true, decide_eq_true_eq] at hm ⊢
    exact ⟨⟨⟨le_trans h hm.1.1.1, hm.1.1.2⟩, hm.1.2⟩, hm.2⟩

/-- An address below every entry reads as unlisted. -/
theorem Memory.read_below {top : Nat} : ∀ {m : Memory} {lo a : Nat}, Memory.wfFrom top lo m = true → a < lo → Memory.read m a = Memory.unlisted
  | [], _, _, _, _ => rfl
  | (x, b) :: r, lo, a, hm, h => by
    simp only [Memory.wfFrom, Bool.and_eq_true, decide_eq_true_eq] at hm
    have hx : ¬x = a := by omega
    simp only [Memory.read, hx, if_false]
    exact Memory.read_below hm.2 (by omega)

theorem Memory.read_erase_other (m : Memory) {a c : Nat} (h : c ≠ a) : Memory.read (Memory.erase m a) c = Memory.read m c := by
  induction m with
  | nil => rfl
  | cons p r ih =>
    obtain ⟨x, b⟩ := p
    simp only [Memory.erase, Memory.read]
    split
    · subst_vars; simp [Ne.symm h]
    · simp only [Memory.read, ih]

theorem Memory.read_insert_other (m : Memory) {a c : Nat} (v : Byte) (h : c ≠ a) :
    Memory.read (Memory.insert m a v) c = Memory.read m c := by
  induction m with
  | nil => simp [Memory.insert, Memory.read, Ne.symm h]
  | cons p r ih =>
    obtain ⟨x, b⟩ := p
    simp only [Memory.insert]
    split
    · simp [Memory.read, Ne.symm h]
    · split
      · subst_vars; simp [Memory.read, Ne.symm h]
      · simp only [Memory.read, ih]

/-- A write leaves every other address alone. -/
theorem Memory.read_write_other (m : Memory) {a c : Nat} (v : Byte) (h : c ≠ a) :
    Memory.read (Memory.write m a v) c = Memory.read m c := by
  unfold Memory.write
  split
  · exact Memory.read_erase_other m h
  · exact Memory.read_insert_other m v h

theorem Memory.read_insert_same (m : Memory) (a : Nat) (v : Byte) : Memory.read (Memory.insert m a v) a = v := by
  induction m with
  | nil => simp [Memory.insert, Memory.read]
  | cons p r ih =>
    obtain ⟨x, b⟩ := p
    simp only [Memory.insert]
    split
    · simp [Memory.read]
    · split
      · simp [Memory.read]
      · rename_i h
        simp [Memory.read, ih, Ne.symm h]

theorem Memory.read_erase_same {top : Nat} : ∀ {m : Memory} {lo : Nat} (a : Nat), Memory.wfFrom top lo m = true →
    Memory.read (Memory.erase m a) a = Memory.unlisted
  | [], _, _, _ => rfl
  | (x, b) :: r, lo, a, hm => by
    simp only [Memory.wfFrom, Bool.and_eq_true, decide_eq_true_eq] at hm
    simp only [Memory.erase]
    split
    · exact Memory.read_below hm.2 (by omega)
    · rename_i h
      simp only [Memory.read, h, if_false]
      exact Memory.read_erase_same a hm.2

/-- A read after a write to the same address gives the value written. -/
theorem Memory.read_write_same {w : Nat} {m : Memory} (a : Nat) (v : Byte) (hm : Memory.wf w m = true) :
    Memory.read (Memory.write m a v) a = v := by
  unfold Memory.write
  split
  · rename_i h; rw [h]; exact Memory.read_erase_same a hm
  · exact Memory.read_insert_same m a v

theorem Memory.wfFrom_erase {top : Nat} : ∀ {m : Memory} {lo : Nat} (a : Nat), Memory.wfFrom top lo m = true →
    Memory.wfFrom top lo (Memory.erase m a) = true
  | [], _, _, _ => rfl
  | (x, b) :: r, lo, a, hm => by
    have h := hm
    simp only [Memory.wfFrom, Bool.and_eq_true, decide_eq_true_eq] at h
    simp only [Memory.erase]
    split
    · exact Memory.wfFrom_weaken (by omega) h.2
    · simp only [Memory.wfFrom, Bool.and_eq_true, decide_eq_true_eq]
      exact ⟨h.1, Memory.wfFrom_erase a h.2⟩

theorem Memory.wfFrom_insert {top : Nat} : ∀ {m : Memory} {lo a : Nat} {v : Byte}, v ≠ Memory.unlisted → a < top → lo ≤ a →
    Memory.wfFrom top lo m = true → Memory.wfFrom top lo (Memory.insert m a v) = true
  | [], lo, a, v, hv, ha, hl, _ => by
    simp only [Memory.insert, Memory.wfFrom, Bool.and_eq_true, decide_eq_true_eq]
    exact ⟨⟨⟨hl, ha⟩, hv⟩, trivial⟩
  | (x, b) :: r, lo, a, v, hv, ha, hl, hm => by
    have h := hm
    simp only [Memory.wfFrom, Bool.and_eq_true, decide_eq_true_eq] at h
    simp only [Memory.insert]
    split
    · simp only [Memory.wfFrom, Bool.and_eq_true, decide_eq_true_eq]
      exact ⟨⟨⟨hl, ha⟩, hv⟩, ⟨⟨by omega, h.1.1.2⟩, h.1.2⟩, h.2⟩
    · split
      · subst_vars
        simp only [Memory.wfFrom, Bool.and_eq_true, decide_eq_true_eq]
        exact ⟨⟨⟨hl, ha⟩, hv⟩, h.2⟩
      · simp only [Memory.wfFrom, Bool.and_eq_true, decide_eq_true_eq]
        exact ⟨h.1, Memory.wfFrom_insert hv ha (by omega) h.2⟩

/-- A write within the address space keeps the canonical form. -/
theorem Memory.wf_write {w : Nat} {m : Memory} {a : Nat} (v : Byte) (ha : a < 2 ^ w) (hm : Memory.wf w m = true) :
    Memory.wf w (Memory.write m a v) = true := by
  unfold Memory.write
  split
  · exact Memory.wfFrom_erase a hm
  · rename_i h; exact Memory.wfFrom_insert h ha (Nat.zero_le a) hm

theorem mod_pow_lt (a w : Nat) : a % 2 ^ w < 2 ^ w := Nat.mod_lt _ (Nat.two_pow_pos w)

/-- An address is below 2^`P_ADDR_W`. -/
theorem byteAt_lt (s : State) (a k : Nat) : byteAt s a k < 2 ^ s.env.params.addrW := mod_pow_lt _ _

/-- Only the parameters of a state say how an address wraps. -/
theorem byteAt_congr {s t : State} (h : t.env.params = s.env.params) (a k : Nat) : byteAt t a k = byteAt s a k := by
  unfold byteAt; rw [h]

/-- The byte `k` after the one `j` after `a`. -/
theorem byteAt_byteAt (s : State) (a j k : Nat) : byteAt s (byteAt s a j) k = byteAt s a (j + k) := by
  simp [byteAt, Nat.add_assoc]

/-- The byte `k` after the address `a + j`. -/
theorem byteAt_add (s : State) (a j k : Nat) : byteAt s (a + j) k = byteAt s a (j + k) := by
  simp [byteAt, Nat.add_assoc]

/-- Bytes less than the address space apart have different addresses. -/
theorem byteAt_injective (s : State) (a : Nat) {j k : Nat} (hj : j < 2 ^ s.env.params.addrW)
    (hk : k < 2 ^ s.env.params.addrW) (h : byteAt s a j = byteAt s a k) : j = k := by
  unfold byteAt at h
  generalize 2 ^ s.env.params.addrW = n at *
  have h2 : j ≡ k [MOD n] := Nat.ModEq.add_left_cancel' a h
  exact Nat.ModEq.eq_of_lt_of_lt h2 hj hk

/-- A write of consecutive bytes keeps the canonical form. -/
theorem Memory.wf_store {w : Nat} : ∀ (bs : List Byte) {m : Memory} (a : Nat), Memory.wf w m = true →
    Memory.wf w (Memory.store w m a bs) = true
  | [], _, _, hm => hm
  | b :: r, _, a, hm => Memory.wf_store r (a + 1) (Memory.wf_write b (mod_pow_lt a w) hm)

/-- What one access does: the bytes at its address, nothing else of the state. -/
theorem memWrite_some {s t : State} {a : Nat} {bs : List Byte} (h : memWrite s a bs = some t) :
    t = { s with mem := Memory.store s.env.params.addrW s.mem a bs } := by
  unfold memWrite at h
  split at h
  · exact (Option.some.inj h).symm
  · cases h

/-- What a sequence of accesses can do: memory only. -/
theorem memWrites_eq (ws : List (Nat × List Byte)) (s : State) : (memWrites s ws).1 = { s with mem := (memWrites s ws).1.mem } := by
  induction ws generalizing s with
  | nil => rfl
  | cons p r ih =>
    simp only [memWrites]
    split
    · rfl
    · rename_i t h
      have ht := memWrite_some h
      rw [ih t]; subst ht; rfl

/-- A sequence of accesses keeps the canonical form. -/
theorem memWrites_wf (ws : List (Nat × List Byte)) (s : State) (h : Memory.wf s.env.params.addrW s.mem = true) :
    Memory.wf s.env.params.addrW (memWrites s ws).1.mem = true := by
  induction ws generalizing s with
  | nil => exact h
  | cons p r ih =>
    simp only [memWrites]
    split
    · exact h
    · rename_i t ht
      have e := memWrite_some ht
      subst e
      exact ih { s with mem := Memory.store s.env.params.addrW s.mem p.1 p.2 } (Memory.wf_store _ _ h)

/-- A byte outside the stored ones is unchanged. -/
theorem Memory.read_store_other (s : State) (bs : List Byte) (m : Memory) (a : Nat) {c : Nat}
    (h : ∀ k, k < bs.length → c ≠ byteAt s a k) :
    Memory.read (Memory.store s.env.params.addrW m a bs) c = Memory.read m c := by
  induction bs generalizing m a with
  | nil => rfl
  | cons b r ih =>
    have h0 : c ≠ a % 2 ^ s.env.params.addrW := h 0 (by simp)
    simp only [Memory.store]
    rw [ih _ _ fun k hk => by rw [byteAt_add, Nat.add_comm]; exact h (k + 1) (by simpa using hk)]
    exact Memory.read_write_other m b h0

/-- A stored byte is read back. -/
theorem Memory.read_store_same (s : State) (bs : List Byte) {m : Memory} (a : Nat)
    (hm : Memory.wf s.env.params.addrW m = true) (hl : bs.length ≤ 2 ^ s.env.params.addrW) {k : Nat} (hk : k < bs.length) :
    Memory.read (Memory.store s.env.params.addrW m a bs) (byteAt s a k) = bs[k] := by
  induction bs generalizing m a k with
  | nil => simp at hk
  | cons b r ih =>
    simp only [Memory.store, List.length_cons] at hl hk ⊢
    cases k with
    | zero =>
      rw [Memory.read_store_other s r _ _ fun j hj => ?_]
      · exact Memory.read_write_same (byteAt s a 0) b hm
      · rw [byteAt_add, Nat.add_comm]
        intro h
        have := byteAt_injective s a (by omega) (by omega) h
        omega
    | succ k =>
      have e : byteAt s a (k + 1) = byteAt s (a + 1) k := by rw [byteAt_add, Nat.add_comm]
      rw [e]
      exact ih (a + 1) (Memory.wf_write b (mod_pow_lt _ _) hm) (by omega) (by omega)

/-- A sequence of accesses that are all permitted stores every block, in order. -/
theorem memWrites_writable (ws : List (Nat × List Byte)) (s : State)
    (h : ∀ w ∈ ws, ∀ k, k < w.2.length → writable s (byteAt s w.1 k) = true) :
    memWrites s ws =
      ({ s with mem := ws.foldl (fun m w => Memory.store s.env.params.addrW m w.1 w.2) s.mem }, true) := by
  induction ws generalizing s with
  | nil => rfl
  | cons w r ih =>
    have hw : memWrite s w.1 w.2 = some { s with mem := Memory.store s.env.params.addrW s.mem w.1 w.2 } := by
      unfold memWrite
      rw [if_pos]
      simpa using h w (by simp)
    simp only [memWrites, hw, List.foldl_cons]
    exact ih _ fun v hv k hk => h v (by simp [hv]) k hk

/-- A sequence of accesses stops at the first that is not permitted: those before it are done, in order. -/
theorem memWrites_stops (ws : List (Nat × List Byte)) (s : State) (n : Nat) (hn : n < ws.length)
    (h : ∀ w ∈ ws.take n, ∀ k, k < w.2.length → writable s (byteAt s w.1 k) = true)
    (hw : ¬∀ k, k < ws[n].2.length → writable s (byteAt s ws[n].1 k) = true) :
    memWrites s ws =
      ({ s with mem := (ws.take n).foldl (fun m w => Memory.store s.env.params.addrW m w.1 w.2) s.mem }, false) := by
  induction ws generalizing s n with
  | nil => exact absurd hn (Nat.not_lt_zero n)
  | cons w r ih =>
    cases n with
    | zero =>
      have hf : memWrite s w.1 w.2 = none := by
        unfold memWrite
        rw [if_neg]
        simpa using hw
      simp only [memWrites, hf, List.take_zero, List.foldl_nil]
    | succ n =>
      have hs : memWrite s w.1 w.2 = some { s with mem := Memory.store s.env.params.addrW s.mem w.1 w.2 } := by
        unfold memWrite
        rw [if_pos]
        simpa using h w (by simp)
      simp only [memWrites, hs, List.take_succ_cons, List.foldl_cons]
      exact ih _ n (by simpa using hn) (fun v hv k hk => h v (by simp [hv]) k hk) hw

/-- A byte outside every block of a sequence of stores is unchanged. -/
theorem Memory.read_foldl_store_other (s : State) (ws : List (Nat × List Byte)) (m : Memory) {c : Nat}
    (h : ∀ w ∈ ws, ∀ k, k < w.2.length → c ≠ byteAt s w.1 k) :
    Memory.read (ws.foldl (fun m w => Memory.store s.env.params.addrW m w.1 w.2) m) c = Memory.read m c := by
  induction ws generalizing m with
  | nil => rfl
  | cons w r ih =>
    rw [List.foldl_cons, ih _ fun v hv k hk => h v (by simp [hv]) k hk]
    exact Memory.read_store_other s w.2 m w.1 (h w (by simp))

/-- A sequence of stores keeps the canonical form. -/
theorem Memory.wf_foldl_store {w : Nat} (ws : List (Nat × List Byte)) {m : Memory} (hm : Memory.wf w m = true) :
    Memory.wf w (ws.foldl (fun m v => Memory.store w m v.1 v.2) m) = true := by
  induction ws generalizing m with
  | nil => exact hm
  | cons v r ih => exact ih (Memory.wf_store v.2 v.1 hm)

/-- A byte that one of a sequence of stores writes, and no later one reaches, is read back. -/
theorem Memory.read_foldl_store_at (s : State) (ws : List (Nat × List Byte)) {m : Memory}
    (hm : Memory.wf s.env.params.addrW m = true) {i : Nat} (hi : i < ws.length)
    (hl : ws[i].2.length ≤ 2 ^ s.env.params.addrW) {j : Nat} (hj : j < ws[i].2.length)
    (h : ∀ w ∈ ws.drop (i + 1), ∀ k, k < w.2.length → byteAt s ws[i].1 j ≠ byteAt s w.1 k) :
    Memory.read (ws.foldl (fun m w => Memory.store s.env.params.addrW m w.1 w.2) m) (byteAt s ws[i].1 j) = ws[i].2[j] := by
  induction ws generalizing m i with
  | nil => exact absurd hi (Nat.not_lt_zero i)
  | cons w r ih =>
    rw [List.foldl_cons]
    cases i with
    | zero =>
      rw [Memory.read_foldl_store_other s r _ fun v hv k hk => h v (by simpa using hv) k hk]
      exact Memory.read_store_same s w.2 w.1 hm hl hj
    | succ i =>
      exact ih (Memory.wf_store w.2 w.1 hm) (by simpa using hi) hl hj h

/-- The reset memory has the canonical form. -/
theorem reset_memory_wf (w : Nat) : Memory.wf w State.reset.mem = true := rfl

end Sys2Proof.Machine
end

