-- ==== Sys2Proof/Laws/State.lean ====
section
/-! SUPPORT. What each unconditional update of the state does to each part of it: one lemma for each untouched group, one for
each field of a touched group, all true by `rfl`. -/

namespace Sys2Proof.Machine

@[simp] theorem latch_ctl (e : ErrCode) (s : State) : (latch e s).ctl = s.ctl := rfl
@[simp] theorem latch_rep_callerr (e : ErrCode) (s : State) : (latch e s).rep.callerr = (if s.ctl.cmdp then s.rep.callerr ||| errBit e else s.rep.callerr) := rfl
@[simp] theorem latch_rep_err (e : ErrCode) (s : State) : (latch e s).rep.err = (if s.env.params.errTrack then s.rep.err ||| errBit e else s.rep.err) := rfl
@[simp] theorem latch_rep_code (e : ErrCode) (s : State) : (latch e s).rep.code = s.rep.code := rfl
@[simp] theorem latch_rep_aux (e : ErrCode) (s : State) : (latch e s).rep.aux = s.rep.aux := rfl
@[simp] theorem latch_rep_reserr (e : ErrCode) (s : State) : (latch e s).rep.reserr = s.rep.reserr := rfl
@[simp] theorem latch_rep_pcode (e : ErrCode) (s : State) : (latch e s).rep.pcode = s.rep.pcode := rfl
@[simp] theorem latch_rep_ier (e : ErrCode) (s : State) : (latch e s).rep.ier = s.rep.ier := rfl
@[simp] theorem latch_rep_isr (e : ErrCode) (s : State) : (latch e s).rep.isr = s.rep.isr := rfl
@[simp] theorem latch_rep_noten (e : ErrCode) (s : State) : (latch e s).rep.noten = s.rep.noten := rfl
@[simp] theorem latch_cnt (e : ErrCode) (s : State) : (latch e s).cnt = s.cnt := rfl
@[simp] theorem latch_fifo (e : ErrCode) (s : State) : (latch e s).fifo = s.fifo := rfl
@[simp] theorem latch_cfg (e : ErrCode) (s : State) : (latch e s).cfg = s.cfg := rfl
@[simp] theorem latch_tst (e : ErrCode) (s : State) : (latch e s).tst = s.tst := rfl
@[simp] theorem latch_ibi (e : ErrCode) (s : State) : (latch e s).ibi = s.ibi := rfl
@[simp] theorem latch_daa (e : ErrCode) (s : State) : (latch e s).daa = s.daa := rfl
@[simp] theorem latch_dec (e : ErrCode) (s : State) : (latch e s).dec = s.dec := rfl
@[simp] theorem latch_seq (e : ErrCode) (s : State) : (latch e s).seq = s.seq := rfl
@[simp] theorem latch_tgt (e : ErrCode) (s : State) : (latch e s).tgt = s.tgt := rfl
@[simp] theorem latch_snap (e : ErrCode) (s : State) : (latch e s).snap = s.snap := rfl
@[simp] theorem latch_arg (e : ErrCode) (s : State) : (latch e s).arg = s.arg := rfl
@[simp] theorem latch_mem (e : ErrCode) (s : State) : (latch e s).mem = s.mem := rfl
@[simp] theorem latch_work (e : ErrCode) (s : State) : (latch e s).work = s.work := rfl
@[simp] theorem latch_env (e : ErrCode) (s : State) : (latch e s).env = s.env := rfl

@[simp] theorem flag_ctl (f : Flag) (s : State) : (flag f s).ctl = s.ctl := rfl
@[simp] theorem flag_rep_callerr (f : Flag) (s : State) : (flag f s).rep.callerr = s.rep.callerr := rfl
@[simp] theorem flag_rep_err (f : Flag) (s : State) : (flag f s).rep.err = s.rep.err := rfl
@[simp] theorem flag_rep_code (f : Flag) (s : State) : (flag f s).rep.code = s.rep.code := rfl
@[simp] theorem flag_rep_aux (f : Flag) (s : State) : (flag f s).rep.aux = s.rep.aux := rfl
@[simp] theorem flag_rep_reserr (f : Flag) (s : State) : (flag f s).rep.reserr = s.rep.reserr := rfl
@[simp] theorem flag_rep_pcode (f : Flag) (s : State) : (flag f s).rep.pcode = s.rep.pcode := rfl
@[simp] theorem flag_rep_ier (f : Flag) (s : State) : (flag f s).rep.ier = s.rep.ier := rfl
@[simp] theorem flag_rep_isr (f : Flag) (s : State) : (flag f s).rep.isr = (s.rep.isr ||| flagBit f) := rfl
@[simp] theorem flag_rep_noten (f : Flag) (s : State) : (flag f s).rep.noten = s.rep.noten := rfl
@[simp] theorem flag_cnt (f : Flag) (s : State) : (flag f s).cnt = s.cnt := rfl
@[simp] theorem flag_fifo (f : Flag) (s : State) : (flag f s).fifo = s.fifo := rfl
@[simp] theorem flag_cfg (f : Flag) (s : State) : (flag f s).cfg = s.cfg := rfl
@[simp] theorem flag_tst (f : Flag) (s : State) : (flag f s).tst = s.tst := rfl
@[simp] theorem flag_ibi (f : Flag) (s : State) : (flag f s).ibi = s.ibi := rfl
@[simp] theorem flag_daa (f : Flag) (s : State) : (flag f s).daa = s.daa := rfl
@[simp] theorem flag_dec (f : Flag) (s : State) : (flag f s).dec = s.dec := rfl
@[simp] theorem flag_seq (f : Flag) (s : State) : (flag f s).seq = s.seq := rfl
@[simp] theorem flag_tgt (f : Flag) (s : State) : (flag f s).tgt = s.tgt := rfl
@[simp] theorem flag_snap (f : Flag) (s : State) : (flag f s).snap = s.snap := rfl
@[simp] theorem flag_arg (f : Flag) (s : State) : (flag f s).arg = s.arg := rfl
@[simp] theorem flag_mem (f : Flag) (s : State) : (flag f s).mem = s.mem := rfl
@[simp] theorem flag_work (f : Flag) (s : State) : (flag f s).work = s.work := rfl
@[simp] theorem flag_env (f : Flag) (s : State) : (flag f s).env = s.env := rfl

@[simp] theorem relisten_ctl_mode (s : State) : (relisten s).ctl.mode = s.ctl.mode := rfl
@[simp] theorem relisten_ctl_life (s : State) : (relisten s).ctl.life = s.ctl.life := rfl
@[simp] theorem relisten_ctl_listen (s : State) : (relisten s).ctl.listen = (listenOf s.ctl.mode s.rep.noten) := rfl
@[simp] theorem relisten_ctl_cmdp (s : State) : (relisten s).ctl.cmdp = s.ctl.cmdp := rfl
@[simp] theorem relisten_ctl_pendop (s : State) : (relisten s).ctl.pendop = s.ctl.pendop := rfl
@[simp] theorem relisten_ctl_tmo (s : State) : (relisten s).ctl.tmo = s.ctl.tmo := rfl
@[simp] theorem relisten_ctl_recov (s : State) : (relisten s).ctl.recov = s.ctl.recov := rfl
@[simp] theorem relisten_ctl_suspended (s : State) : (relisten s).ctl.suspended = s.ctl.suspended := rfl
@[simp] theorem relisten_ctl_abortreq (s : State) : (relisten s).ctl.abortreq = s.ctl.abortreq := rfl
@[simp] theorem relisten_ctl_strat (s : State) : (relisten s).ctl.strat = s.ctl.strat := rfl
@[simp] theorem relisten_rep (s : State) : (relisten s).rep = s.rep := rfl
@[simp] theorem relisten_cnt (s : State) : (relisten s).cnt = s.cnt := rfl
@[simp] theorem relisten_fifo (s : State) : (relisten s).fifo = s.fifo := rfl
@[simp] theorem relisten_cfg (s : State) : (relisten s).cfg = s.cfg := rfl
@[simp] theorem relisten_tst (s : State) : (relisten s).tst = s.tst := rfl
@[simp] theorem relisten_ibi (s : State) : (relisten s).ibi = s.ibi := rfl
@[simp] theorem relisten_daa (s : State) : (relisten s).daa = s.daa := rfl
@[simp] theorem relisten_dec (s : State) : (relisten s).dec = s.dec := rfl
@[simp] theorem relisten_seq (s : State) : (relisten s).seq = s.seq := rfl
@[simp] theorem relisten_tgt (s : State) : (relisten s).tgt = s.tgt := rfl
@[simp] theorem relisten_snap (s : State) : (relisten s).snap = s.snap := rfl
@[simp] theorem relisten_arg (s : State) : (relisten s).arg = s.arg := rfl
@[simp] theorem relisten_mem (s : State) : (relisten s).mem = s.mem := rfl
@[simp] theorem relisten_work (s : State) : (relisten s).work = s.work := rfl
@[simp] theorem relisten_env (s : State) : (relisten s).env = s.env := rfl

@[simp] theorem drive_ctl (o : BusOut) (s : State) : (drive o s).ctl = s.ctl := rfl
@[simp] theorem drive_rep (o : BusOut) (s : State) : (drive o s).rep = s.rep := rfl
@[simp] theorem drive_cnt (o : BusOut) (s : State) : (drive o s).cnt = s.cnt := rfl
@[simp] theorem drive_fifo (o : BusOut) (s : State) : (drive o s).fifo = s.fifo := rfl
@[simp] theorem drive_cfg (o : BusOut) (s : State) : (drive o s).cfg = s.cfg := rfl
@[simp] theorem drive_tst (o : BusOut) (s : State) : (drive o s).tst = s.tst := rfl
@[simp] theorem drive_ibi (o : BusOut) (s : State) : (drive o s).ibi = s.ibi := rfl
@[simp] theorem drive_daa (o : BusOut) (s : State) : (drive o s).daa = s.daa := rfl
@[simp] theorem drive_dec (o : BusOut) (s : State) : (drive o s).dec = s.dec := rfl
@[simp] theorem drive_seq (o : BusOut) (s : State) : (drive o s).seq = s.seq := rfl
@[simp] theorem drive_tgt (o : BusOut) (s : State) : (drive o s).tgt = s.tgt := rfl
@[simp] theorem drive_snap (o : BusOut) (s : State) : (drive o s).snap = s.snap := rfl
@[simp] theorem drive_arg (o : BusOut) (s : State) : (drive o s).arg = s.arg := rfl
@[simp] theorem drive_mem (o : BusOut) (s : State) : (drive o s).mem = s.mem := rfl
@[simp] theorem drive_work (o : BusOut) (s : State) : (drive o s).work = s.work := rfl
@[simp] theorem drive_env_params (o : BusOut) (s : State) : (drive o s).env.params = s.env.params := rfl
@[simp] theorem drive_env_agenda (o : BusOut) (s : State) : (drive o s).env.agenda = s.env.agenda := rfl
@[simp] theorem drive_env_events (o : BusOut) (s : State) : (drive o s).env.events = s.env.events := rfl
@[simp] theorem drive_env_cue (o : BusOut) (s : State) : (drive o s).env.cue = s.env.cue := rfl
@[simp] theorem drive_env_bus (o : BusOut) (s : State) : (drive o s).env.bus = (o :: s.env.bus) := rfl
@[simp] theorem drive_env_hostRead (o : BusOut) (s : State) : (drive o s).env.hostRead = s.env.hostRead := rfl

@[simp] theorem setCue_ctl (c : Cue) (s : State) : (setCue c s).ctl = s.ctl := rfl
@[simp] theorem setCue_rep (c : Cue) (s : State) : (setCue c s).rep = s.rep := rfl
@[simp] theorem setCue_cnt (c : Cue) (s : State) : (setCue c s).cnt = s.cnt := rfl
@[simp] theorem setCue_fifo (c : Cue) (s : State) : (setCue c s).fifo = s.fifo := rfl
@[simp] theorem setCue_cfg (c : Cue) (s : State) : (setCue c s).cfg = s.cfg := rfl
@[simp] theorem setCue_tst (c : Cue) (s : State) : (setCue c s).tst = s.tst := rfl
@[simp] theorem setCue_ibi (c : Cue) (s : State) : (setCue c s).ibi = s.ibi := rfl
@[simp] theorem setCue_daa (c : Cue) (s : State) : (setCue c s).daa = s.daa := rfl
@[simp] theorem setCue_dec (c : Cue) (s : State) : (setCue c s).dec = s.dec := rfl
@[simp] theorem setCue_seq (c : Cue) (s : State) : (setCue c s).seq = s.seq := rfl
@[simp] theorem setCue_tgt (c : Cue) (s : State) : (setCue c s).tgt = s.tgt := rfl
@[simp] theorem setCue_snap (c : Cue) (s : State) : (setCue c s).snap = s.snap := rfl
@[simp] theorem setCue_arg (c : Cue) (s : State) : (setCue c s).arg = s.arg := rfl
@[simp] theorem setCue_mem (c : Cue) (s : State) : (setCue c s).mem = s.mem := rfl
@[simp] theorem setCue_work (c : Cue) (s : State) : (setCue c s).work = s.work := rfl
@[simp] theorem setCue_env_params (c : Cue) (s : State) : (setCue c s).env.params = s.env.params := rfl
@[simp] theorem setCue_env_agenda (c : Cue) (s : State) : (setCue c s).env.agenda = s.env.agenda := rfl
@[simp] theorem setCue_env_events (c : Cue) (s : State) : (setCue c s).env.events = s.env.events := rfl
@[simp] theorem setCue_env_cue (c : Cue) (s : State) : (setCue c s).env.cue = c := rfl
@[simp] theorem setCue_env_bus (c : Cue) (s : State) : (setCue c s).env.bus = s.env.bus := rfl
@[simp] theorem setCue_env_hostRead (c : Cue) (s : State) : (setCue c s).env.hostRead = s.env.hostRead := rfl

@[simp] theorem reject_ctl (c : Code) (s : State) : (reject c s).ctl = s.ctl := rfl
@[simp] theorem reject_rep_callerr (c : Code) (s : State) : (reject c s).rep.callerr = s.rep.callerr := rfl
@[simp] theorem reject_rep_err (c : Code) (s : State) : (reject c s).rep.err = s.rep.err := rfl
@[simp] theorem reject_rep_code (c : Code) (s : State) : (reject c s).rep.code = (codeBits c) := rfl
@[simp] theorem reject_rep_aux (c : Code) (s : State) : (reject c s).rep.aux = 0 := rfl
@[simp] theorem reject_rep_reserr (c : Code) (s : State) : (reject c s).rep.reserr = 0 := rfl
@[simp] theorem reject_rep_pcode (c : Code) (s : State) : (reject c s).rep.pcode = s.rep.pcode := rfl
@[simp] theorem reject_rep_ier (c : Code) (s : State) : (reject c s).rep.ier = s.rep.ier := rfl
@[simp] theorem reject_rep_isr (c : Code) (s : State) : (reject c s).rep.isr = s.rep.isr := rfl
@[simp] theorem reject_rep_noten (c : Code) (s : State) : (reject c s).rep.noten = s.rep.noten := rfl
@[simp] theorem reject_cnt (c : Code) (s : State) : (reject c s).cnt = s.cnt := rfl
@[simp] theorem reject_fifo (c : Code) (s : State) : (reject c s).fifo = s.fifo := rfl
@[simp] theorem reject_cfg (c : Code) (s : State) : (reject c s).cfg = s.cfg := rfl
@[simp] theorem reject_tst (c : Code) (s : State) : (reject c s).tst = s.tst := rfl
@[simp] theorem reject_ibi (c : Code) (s : State) : (reject c s).ibi = s.ibi := rfl
@[simp] theorem reject_daa (c : Code) (s : State) : (reject c s).daa = s.daa := rfl
@[simp] theorem reject_dec (c : Code) (s : State) : (reject c s).dec = s.dec := rfl
@[simp] theorem reject_seq (c : Code) (s : State) : (reject c s).seq = s.seq := rfl
@[simp] theorem reject_tgt (c : Code) (s : State) : (reject c s).tgt = s.tgt := rfl
@[simp] theorem reject_snap (c : Code) (s : State) : (reject c s).snap = s.snap := rfl
@[simp] theorem reject_arg (c : Code) (s : State) : (reject c s).arg = s.arg := rfl
@[simp] theorem reject_mem (c : Code) (s : State) : (reject c s).mem = s.mem := rfl
@[simp] theorem reject_work (c : Code) (s : State) : (reject c s).work = s.work := rfl
@[simp] theorem reject_env (c : Code) (s : State) : (reject c s).env = s.env := rfl

@[simp] theorem presult_ctl (c : Code) (s : State) : (presult c s).ctl = s.ctl := rfl
@[simp] theorem presult_rep_callerr (c : Code) (s : State) : (presult c s).rep.callerr = s.rep.callerr := rfl
@[simp] theorem presult_rep_err (c : Code) (s : State) : (presult c s).rep.err = s.rep.err := rfl
@[simp] theorem presult_rep_code (c : Code) (s : State) : (presult c s).rep.code = s.rep.code := rfl
@[simp] theorem presult_rep_aux (c : Code) (s : State) : (presult c s).rep.aux = s.rep.aux := rfl
@[simp] theorem presult_rep_reserr (c : Code) (s : State) : (presult c s).rep.reserr = s.rep.reserr := rfl
@[simp] theorem presult_rep_pcode (c : Code) (s : State) : (presult c s).rep.pcode = (codeBits c) := rfl
@[simp] theorem presult_rep_ier (c : Code) (s : State) : (presult c s).rep.ier = s.rep.ier := rfl
@[simp] theorem presult_rep_isr (c : Code) (s : State) : (presult c s).rep.isr = s.rep.isr := rfl
@[simp] theorem presult_rep_noten (c : Code) (s : State) : (presult c s).rep.noten = s.rep.noten := rfl
@[simp] theorem presult_cnt (c : Code) (s : State) : (presult c s).cnt = s.cnt := rfl
@[simp] theorem presult_fifo (c : Code) (s : State) : (presult c s).fifo = s.fifo := rfl
@[simp] theorem presult_cfg (c : Code) (s : State) : (presult c s).cfg = s.cfg := rfl
@[simp] theorem presult_tst (c : Code) (s : State) : (presult c s).tst = s.tst := rfl
@[simp] theorem presult_ibi (c : Code) (s : State) : (presult c s).ibi = s.ibi := rfl
@[simp] theorem presult_daa (c : Code) (s : State) : (presult c s).daa = s.daa := rfl
@[simp] theorem presult_dec (c : Code) (s : State) : (presult c s).dec = s.dec := rfl
@[simp] theorem presult_seq (c : Code) (s : State) : (presult c s).seq = s.seq := rfl
@[simp] theorem presult_tgt (c : Code) (s : State) : (presult c s).tgt = s.tgt := rfl
@[simp] theorem presult_snap (c : Code) (s : State) : (presult c s).snap = s.snap := rfl
@[simp] theorem presult_arg (c : Code) (s : State) : (presult c s).arg = s.arg := rfl
@[simp] theorem presult_mem (c : Code) (s : State) : (presult c s).mem = s.mem := rfl
@[simp] theorem presult_work (c : Code) (s : State) : (presult c s).work = s.work := rfl
@[simp] theorem presult_env (c : Code) (s : State) : (presult c s).env = s.env := rfl

@[simp] theorem freshWork_ctl (s : State) : (freshWork s).ctl = s.ctl := rfl
@[simp] theorem freshWork_rep (s : State) : (freshWork s).rep = s.rep := rfl
@[simp] theorem freshWork_cnt (s : State) : (freshWork s).cnt = s.cnt := rfl
@[simp] theorem freshWork_fifo (s : State) : (freshWork s).fifo = s.fifo := rfl
@[simp] theorem freshWork_cfg (s : State) : (freshWork s).cfg = s.cfg := rfl
@[simp] theorem freshWork_tst (s : State) : (freshWork s).tst = s.tst := rfl
@[simp] theorem freshWork_ibi (s : State) : (freshWork s).ibi = s.ibi := rfl
@[simp] theorem freshWork_daa (s : State) : (freshWork s).daa = s.daa := rfl
@[simp] theorem freshWork_dec (s : State) : (freshWork s).dec = s.dec := rfl
@[simp] theorem freshWork_seq (s : State) : (freshWork s).seq = s.seq := rfl
@[simp] theorem freshWork_tgt (s : State) : (freshWork s).tgt = s.tgt := rfl
@[simp] theorem freshWork_snap (s : State) : (freshWork s).snap = s.snap := rfl
@[simp] theorem freshWork_arg (s : State) : (freshWork s).arg = s.arg := rfl
@[simp] theorem freshWork_mem (s : State) : (freshWork s).mem = s.mem := rfl
@[simp] theorem freshWork_work_micro (s : State) : (freshWork s).work.micro = .start := rfl
@[simp] theorem freshWork_work_request (s : State) : (freshWork s).work.request = s.work.request := rfl
@[simp] theorem freshWork_work_rxHold (s : State) : (freshWork s).work.rxHold = none := rfl
@[simp] theorem freshWork_work_lastRx (s : State) : (freshWork s).work.lastRx = s.work.lastRx := rfl
@[simp] theorem freshWork_work_opAddr (s : State) : (freshWork s).work.opAddr = s.work.opAddr := rfl
@[simp] theorem freshWork_work_opData (s : State) : (freshWork s).work.opData = s.work.opData := rfl
@[simp] theorem freshWork_work_opI2c (s : State) : (freshWork s).work.opI2c = s.work.opI2c := rfl
@[simp] theorem freshWork_work_opOk (s : State) : (freshWork s).work.opOk = s.work.opOk := rfl
@[simp] theorem freshWork_work_trial (s : State) : (freshWork s).work.trial = s.work.trial := rfl
@[simp] theorem freshWork_work_trials (s : State) : (freshWork s).work.trials = s.work.trials := rfl
@[simp] theorem freshWork_work_rxBase (s : State) : (freshWork s).work.rxBase = s.work.rxBase := rfl
@[simp] theorem freshWork_work_rxCap (s : State) : (freshWork s).work.rxCap = s.work.rxCap := rfl
@[simp] theorem freshWork_work_listOvr (s : State) : (freshWork s).work.listOvr = s.work.listOvr := rfl
@[simp] theorem freshWork_work_dmaEngine (s : State) : (freshWork s).work.dmaEngine = s.work.dmaEngine := rfl
@[simp] theorem freshWork_work_draws (s : State) : (freshWork s).work.draws = s.work.draws := rfl
@[simp] theorem freshWork_env (s : State) : (freshWork s).env = s.env := rfl

@[simp] theorem clearWork_ctl (s : State) : (clearWork s).ctl = s.ctl := rfl
@[simp] theorem clearWork_rep (s : State) : (clearWork s).rep = s.rep := rfl
@[simp] theorem clearWork_cnt (s : State) : (clearWork s).cnt = s.cnt := rfl
@[simp] theorem clearWork_fifo (s : State) : (clearWork s).fifo = s.fifo := rfl
@[simp] theorem clearWork_cfg (s : State) : (clearWork s).cfg = s.cfg := rfl
@[simp] theorem clearWork_tst (s : State) : (clearWork s).tst = s.tst := rfl
@[simp] theorem clearWork_ibi (s : State) : (clearWork s).ibi = s.ibi := rfl
@[simp] theorem clearWork_daa (s : State) : (clearWork s).daa = s.daa := rfl
@[simp] theorem clearWork_dec (s : State) : (clearWork s).dec = s.dec := rfl
@[simp] theorem clearWork_seq (s : State) : (clearWork s).seq = s.seq := rfl
@[simp] theorem clearWork_tgt (s : State) : (clearWork s).tgt = s.tgt := rfl
@[simp] theorem clearWork_snap (s : State) : (clearWork s).snap = s.snap := rfl
@[simp] theorem clearWork_arg (s : State) : (clearWork s).arg = s.arg := rfl
@[simp] theorem clearWork_mem (s : State) : (clearWork s).mem = s.mem := rfl
@[simp] theorem clearWork_work_micro (s : State) : (clearWork s).work.micro = .start := rfl
@[simp] theorem clearWork_work_request (s : State) : (clearWork s).work.request = .idle := rfl
@[simp] theorem clearWork_work_rxHold (s : State) : (clearWork s).work.rxHold = none := rfl
@[simp] theorem clearWork_work_lastRx (s : State) : (clearWork s).work.lastRx = s.work.lastRx := rfl
@[simp] theorem clearWork_work_opAddr (s : State) : (clearWork s).work.opAddr = s.work.opAddr := rfl
@[simp] theorem clearWork_work_opData (s : State) : (clearWork s).work.opData = s.work.opData := rfl
@[simp] theorem clearWork_work_opI2c (s : State) : (clearWork s).work.opI2c = s.work.opI2c := rfl
@[simp] theorem clearWork_work_opOk (s : State) : (clearWork s).work.opOk = s.work.opOk := rfl
@[simp] theorem clearWork_work_trial (s : State) : (clearWork s).work.trial = s.work.trial := rfl
@[simp] theorem clearWork_work_trials (s : State) : (clearWork s).work.trials = s.work.trials := rfl
@[simp] theorem clearWork_work_rxBase (s : State) : (clearWork s).work.rxBase = s.work.rxBase := rfl
@[simp] theorem clearWork_work_rxCap (s : State) : (clearWork s).work.rxCap = s.work.rxCap := rfl
@[simp] theorem clearWork_work_listOvr (s : State) : (clearWork s).work.listOvr = s.work.listOvr := rfl
@[simp] theorem clearWork_work_dmaEngine (s : State) : (clearWork s).work.dmaEngine = s.work.dmaEngine := rfl
@[simp] theorem clearWork_work_draws (s : State) : (clearWork s).work.draws = s.work.draws := rfl
@[simp] theorem clearWork_env (s : State) : (clearWork s).env = s.env := rfl

@[simp] theorem accept_ctl_mode (op : Byte) (st : Strat) (t : Word) (s : State) : (accept op st t s).ctl.mode = s.ctl.mode := rfl
@[simp] theorem accept_ctl_life (op : Byte) (st : Strat) (t : Word) (s : State) : (accept op st t s).ctl.life = s.ctl.life := rfl
@[simp] theorem accept_ctl_listen (op : Byte) (st : Strat) (t : Word) (s : State) : (accept op st t s).ctl.listen = s.ctl.listen := rfl
@[simp] theorem accept_ctl_cmdp (op : Byte) (st : Strat) (t : Word) (s : State) : (accept op st t s).ctl.cmdp = true := rfl
@[simp] theorem accept_ctl_pendop (op : Byte) (st : Strat) (t : Word) (s : State) : (accept op st t s).ctl.pendop = op := rfl
@[simp] theorem accept_ctl_tmo (op : Byte) (st : Strat) (t : Word) (s : State) : (accept op st t s).ctl.tmo = (st == .poll && t != 0#32) := rfl
@[simp] theorem accept_ctl_recov (op : Byte) (st : Strat) (t : Word) (s : State) : (accept op st t s).ctl.recov = s.ctl.recov := rfl
@[simp] theorem accept_ctl_suspended (op : Byte) (st : Strat) (t : Word) (s : State) : (accept op st t s).ctl.suspended = s.ctl.suspended := rfl
@[simp] theorem accept_ctl_abortreq (op : Byte) (st : Strat) (t : Word) (s : State) : (accept op st t s).ctl.abortreq = s.ctl.abortreq := rfl
@[simp] theorem accept_ctl_strat (op : Byte) (st : Strat) (t : Word) (s : State) : (accept op st t s).ctl.strat = st := rfl
@[simp] theorem accept_rep_callerr (op : Byte) (st : Strat) (t : Word) (s : State) : (accept op st t s).rep.callerr = 0 := rfl
@[simp] theorem accept_rep_err (op : Byte) (st : Strat) (t : Word) (s : State) : (accept op st t s).rep.err = s.rep.err := rfl
@[simp] theorem accept_rep_code (op : Byte) (st : Strat) (t : Word) (s : State) : (accept op st t s).rep.code = s.rep.code := rfl
@[simp] theorem accept_rep_aux (op : Byte) (st : Strat) (t : Word) (s : State) : (accept op st t s).rep.aux = s.rep.aux := rfl
@[simp] theorem accept_rep_reserr (op : Byte) (st : Strat) (t : Word) (s : State) : (accept op st t s).rep.reserr = s.rep.reserr := rfl
@[simp] theorem accept_rep_pcode (op : Byte) (st : Strat) (t : Word) (s : State) : (accept op st t s).rep.pcode = s.rep.pcode := rfl
@[simp] theorem accept_rep_ier (op : Byte) (st : Strat) (t : Word) (s : State) : (accept op st t s).rep.ier = s.rep.ier := rfl
@[simp] theorem accept_rep_isr (op : Byte) (st : Strat) (t : Word) (s : State) : (accept op st t s).rep.isr = s.rep.isr := rfl
@[simp] theorem accept_rep_noten (op : Byte) (st : Strat) (t : Word) (s : State) : (accept op st t s).rep.noten = s.rep.noten := rfl
@[simp] theorem accept_cnt (op : Byte) (st : Strat) (t : Word) (s : State) : (accept op st t s).cnt = s.cnt := rfl
@[simp] theorem accept_fifo (op : Byte) (st : Strat) (t : Word) (s : State) : (accept op st t s).fifo = s.fifo := rfl
@[simp] theorem accept_cfg (op : Byte) (st : Strat) (t : Word) (s : State) : (accept op st t s).cfg = s.cfg := rfl
@[simp] theorem accept_tst (op : Byte) (st : Strat) (t : Word) (s : State) : (accept op st t s).tst = s.tst := rfl
@[simp] theorem accept_ibi (op : Byte) (st : Strat) (t : Word) (s : State) : (accept op st t s).ibi = s.ibi := rfl
@[simp] theorem accept_daa (op : Byte) (st : Strat) (t : Word) (s : State) : (accept op st t s).daa = s.daa := rfl
@[simp] theorem accept_dec (op : Byte) (st : Strat) (t : Word) (s : State) : (accept op st t s).dec = s.dec := rfl
@[simp] theorem accept_seq (op : Byte) (st : Strat) (t : Word) (s : State) : (accept op st t s).seq = s.seq := rfl
@[simp] theorem accept_tgt (op : Byte) (st : Strat) (t : Word) (s : State) : (accept op st t s).tgt = s.tgt := rfl
@[simp] theorem accept_snap (op : Byte) (st : Strat) (t : Word) (s : State) : (accept op st t s).snap = s.snap := rfl
@[simp] theorem accept_arg (op : Byte) (st : Strat) (t : Word) (s : State) : (accept op st t s).arg = s.arg := rfl
@[simp] theorem accept_mem (op : Byte) (st : Strat) (t : Word) (s : State) : (accept op st t s).mem = s.mem := rfl
@[simp] theorem accept_work_micro (op : Byte) (st : Strat) (t : Word) (s : State) : (accept op st t s).work.micro = .start := rfl
@[simp] theorem accept_work_request (op : Byte) (st : Strat) (t : Word) (s : State) : (accept op st t s).work.request = s.work.request := rfl
@[simp] theorem accept_work_rxHold (op : Byte) (st : Strat) (t : Word) (s : State) : (accept op st t s).work.rxHold = none := rfl
@[simp] theorem accept_work_lastRx (op : Byte) (st : Strat) (t : Word) (s : State) : (accept op st t s).work.lastRx = s.work.lastRx := rfl
@[simp] theorem accept_work_opAddr (op : Byte) (st : Strat) (t : Word) (s : State) : (accept op st t s).work.opAddr = s.work.opAddr := rfl
@[simp] theorem accept_work_opData (op : Byte) (st : Strat) (t : Word) (s : State) : (accept op st t s).work.opData = s.work.opData := rfl
@[simp] theorem accept_work_opI2c (op : Byte) (st : Strat) (t : Word) (s : State) : (accept op st t s).work.opI2c = s.work.opI2c := rfl
@[simp] theorem accept_work_opOk (op : Byte) (st : Strat) (t : Word) (s : State) : (accept op st t s).work.opOk = s.work.opOk := rfl
@[simp] theorem accept_work_trial (op : Byte) (st : Strat) (t : Word) (s : State) : (accept op st t s).work.trial = s.work.trial := rfl
@[simp] theorem accept_work_trials (op : Byte) (st : Strat) (t : Word) (s : State) : (accept op st t s).work.trials = s.work.trials := rfl
@[simp] theorem accept_work_rxBase (op : Byte) (st : Strat) (t : Word) (s : State) : (accept op st t s).work.rxBase = s.work.rxBase := rfl
@[simp] theorem accept_work_rxCap (op : Byte) (st : Strat) (t : Word) (s : State) : (accept op st t s).work.rxCap = s.work.rxCap := rfl
@[simp] theorem accept_work_listOvr (op : Byte) (st : Strat) (t : Word) (s : State) : (accept op st t s).work.listOvr = s.work.listOvr := rfl
@[simp] theorem accept_work_dmaEngine (op : Byte) (st : Strat) (t : Word) (s : State) : (accept op st t s).work.dmaEngine = s.work.dmaEngine := rfl
@[simp] theorem accept_work_draws (op : Byte) (st : Strat) (t : Word) (s : State) : (accept op st t s).work.draws = s.work.draws := rfl
@[simp] theorem accept_env (op : Byte) (st : Strat) (t : Word) (s : State) : (accept op st t s).env = s.env := rfl

@[simp] theorem finish_ctl_mode (c : Code) (aux : BitVec 16) (s : State) : (finish c aux s).ctl.mode = s.ctl.mode := rfl
@[simp] theorem finish_ctl_life (c : Code) (aux : BitVec 16) (s : State) : (finish c aux s).ctl.life = s.ctl.life := rfl
@[simp] theorem finish_ctl_listen (c : Code) (aux : BitVec 16) (s : State) : (finish c aux s).ctl.listen = s.ctl.listen := rfl
@[simp] theorem finish_ctl_cmdp (c : Code) (aux : BitVec 16) (s : State) : (finish c aux s).ctl.cmdp = false := rfl
@[simp] theorem finish_ctl_pendop (c : Code) (aux : BitVec 16) (s : State) : (finish c aux s).ctl.pendop = s.ctl.pendop := rfl
@[simp] theorem finish_ctl_tmo (c : Code) (aux : BitVec 16) (s : State) : (finish c aux s).ctl.tmo = false := rfl
@[simp] theorem finish_ctl_recov (c : Code) (aux : BitVec 16) (s : State) : (finish c aux s).ctl.recov = s.ctl.recov := rfl
@[simp] theorem finish_ctl_suspended (c : Code) (aux : BitVec 16) (s : State) : (finish c aux s).ctl.suspended = s.ctl.suspended := rfl
@[simp] theorem finish_ctl_abortreq (c : Code) (aux : BitVec 16) (s : State) : (finish c aux s).ctl.abortreq = s.ctl.abortreq := rfl
@[simp] theorem finish_ctl_strat (c : Code) (aux : BitVec 16) (s : State) : (finish c aux s).ctl.strat = s.ctl.strat := rfl
@[simp] theorem finish_rep_callerr (c : Code) (aux : BitVec 16) (s : State) : (finish c aux s).rep.callerr = s.rep.callerr := rfl
@[simp] theorem finish_rep_err (c : Code) (aux : BitVec 16) (s : State) : (finish c aux s).rep.err = s.rep.err := rfl
@[simp] theorem finish_rep_code (c : Code) (aux : BitVec 16) (s : State) : (finish c aux s).rep.code = (codeBits c) := rfl
@[simp] theorem finish_rep_aux (c : Code) (aux : BitVec 16) (s : State) : (finish c aux s).rep.aux = aux := rfl
@[simp] theorem finish_rep_reserr (c : Code) (aux : BitVec 16) (s : State) : (finish c aux s).rep.reserr = s.rep.callerr := rfl
@[simp] theorem finish_rep_pcode (c : Code) (aux : BitVec 16) (s : State) : (finish c aux s).rep.pcode = s.rep.pcode := rfl
@[simp] theorem finish_rep_ier (c : Code) (aux : BitVec 16) (s : State) : (finish c aux s).rep.ier = s.rep.ier := rfl
@[simp] theorem finish_rep_isr (c : Code) (aux : BitVec 16) (s : State) : (finish c aux s).rep.isr = s.rep.isr := rfl
@[simp] theorem finish_rep_noten (c : Code) (aux : BitVec 16) (s : State) : (finish c aux s).rep.noten = s.rep.noten := rfl
@[simp] theorem finish_cnt (c : Code) (aux : BitVec 16) (s : State) : (finish c aux s).cnt = s.cnt := rfl
@[simp] theorem finish_fifo (c : Code) (aux : BitVec 16) (s : State) : (finish c aux s).fifo = s.fifo := rfl
@[simp] theorem finish_cfg (c : Code) (aux : BitVec 16) (s : State) : (finish c aux s).cfg = s.cfg := rfl
@[simp] theorem finish_tst (c : Code) (aux : BitVec 16) (s : State) : (finish c aux s).tst = s.tst := rfl
@[simp] theorem finish_ibi (c : Code) (aux : BitVec 16) (s : State) : (finish c aux s).ibi = s.ibi := rfl
@[simp] theorem finish_daa (c : Code) (aux : BitVec 16) (s : State) : (finish c aux s).daa = s.daa := rfl
@[simp] theorem finish_dec (c : Code) (aux : BitVec 16) (s : State) : (finish c aux s).dec = s.dec := rfl
@[simp] theorem finish_seq (c : Code) (aux : BitVec 16) (s : State) : (finish c aux s).seq = s.seq := rfl
@[simp] theorem finish_tgt (c : Code) (aux : BitVec 16) (s : State) : (finish c aux s).tgt = s.tgt := rfl
@[simp] theorem finish_snap (c : Code) (aux : BitVec 16) (s : State) : (finish c aux s).snap = s.snap := rfl
@[simp] theorem finish_arg (c : Code) (aux : BitVec 16) (s : State) : (finish c aux s).arg = s.arg := rfl
@[simp] theorem finish_mem (c : Code) (aux : BitVec 16) (s : State) : (finish c aux s).mem = s.mem := rfl
@[simp] theorem finish_work (c : Code) (aux : BitVec 16) (s : State) : (finish c aux s).work = s.work := rfl
@[simp] theorem finish_env (c : Code) (aux : BitVec 16) (s : State) : (finish c aux s).env = s.env := rfl

@[simp] theorem setLife_ctl_mode (l : Life) (s : State) : (setLife l s).ctl.mode = s.ctl.mode := rfl
@[simp] theorem setLife_ctl_life (l : Life) (s : State) : (setLife l s).ctl.life = l := rfl
@[simp] theorem setLife_ctl_listen (l : Life) (s : State) : (setLife l s).ctl.listen = s.ctl.listen := rfl
@[simp] theorem setLife_ctl_cmdp (l : Life) (s : State) : (setLife l s).ctl.cmdp = s.ctl.cmdp := rfl
@[simp] theorem setLife_ctl_pendop (l : Life) (s : State) : (setLife l s).ctl.pendop = s.ctl.pendop := rfl
@[simp] theorem setLife_ctl_tmo (l : Life) (s : State) : (setLife l s).ctl.tmo = s.ctl.tmo := rfl
@[simp] theorem setLife_ctl_recov (l : Life) (s : State) : (setLife l s).ctl.recov = s.ctl.recov := rfl
@[simp] theorem setLife_ctl_suspended (l : Life) (s : State) : (setLife l s).ctl.suspended = s.ctl.suspended := rfl
@[simp] theorem setLife_ctl_abortreq (l : Life) (s : State) : (setLife l s).ctl.abortreq = s.ctl.abortreq := rfl
@[simp] theorem setLife_ctl_strat (l : Life) (s : State) : (setLife l s).ctl.strat = s.ctl.strat := rfl
@[simp] theorem setLife_rep (l : Life) (s : State) : (setLife l s).rep = s.rep := rfl
@[simp] theorem setLife_cnt (l : Life) (s : State) : (setLife l s).cnt = s.cnt := rfl
@[simp] theorem setLife_fifo (l : Life) (s : State) : (setLife l s).fifo = s.fifo := rfl
@[simp] theorem setLife_cfg (l : Life) (s : State) : (setLife l s).cfg = s.cfg := rfl
@[simp] theorem setLife_tst (l : Life) (s : State) : (setLife l s).tst = s.tst := rfl
@[simp] theorem setLife_ibi (l : Life) (s : State) : (setLife l s).ibi = s.ibi := rfl
@[simp] theorem setLife_daa (l : Life) (s : State) : (setLife l s).daa = s.daa := rfl
@[simp] theorem setLife_dec (l : Life) (s : State) : (setLife l s).dec = s.dec := rfl
@[simp] theorem setLife_seq (l : Life) (s : State) : (setLife l s).seq = s.seq := rfl
@[simp] theorem setLife_tgt (l : Life) (s : State) : (setLife l s).tgt = s.tgt := rfl
@[simp] theorem setLife_snap (l : Life) (s : State) : (setLife l s).snap = s.snap := rfl
@[simp] theorem setLife_arg (l : Life) (s : State) : (setLife l s).arg = s.arg := rfl
@[simp] theorem setLife_mem (l : Life) (s : State) : (setLife l s).mem = s.mem := rfl
@[simp] theorem setLife_work (l : Life) (s : State) : (setLife l s).work = s.work := rfl
@[simp] theorem setLife_env (l : Life) (s : State) : (setLife l s).env = s.env := rfl

@[simp] theorem drainAll_ctl (s : State) : (drainAll s).ctl = s.ctl := rfl
@[simp] theorem drainAll_rep (s : State) : (drainAll s).rep = s.rep := rfl
@[simp] theorem drainAll_cnt_datacnt (s : State) : (drainAll s).cnt.datacnt = s.cnt.datacnt := rfl
@[simp] theorem drainAll_cnt_msgcnt (s : State) : (drainAll s).cnt.msgcnt = s.cnt.msgcnt := rfl
@[simp] theorem drainAll_cnt_ctrlrem (s : State) : (drainAll s).cnt.ctrlrem = 0 := rfl
@[simp] theorem drainAll_cnt_txrem (s : State) : (drainAll s).cnt.txrem = 0 := rfl
@[simp] theorem drainAll_cnt_rxrem (s : State) : (drainAll s).cnt.rxrem = 0 := rfl
@[simp] theorem drainAll_cnt_ctrlptr (s : State) : (drainAll s).cnt.ctrlptr = s.cnt.ctrlptr := rfl
@[simp] theorem drainAll_cnt_txptr (s : State) : (drainAll s).cnt.txptr = s.cnt.txptr := rfl
@[simp] theorem drainAll_cnt_rxptr (s : State) : (drainAll s).cnt.rxptr = s.cnt.rxptr := rfl
@[simp] theorem drainAll_cnt_ctxaddr (s : State) : (drainAll s).cnt.ctxaddr = s.cnt.ctxaddr := rfl
@[simp] theorem drainAll_fifo_cfifo (s : State) : (drainAll s).fifo.cfifo = [] := rfl
@[simp] theorem drainAll_fifo_sfifo (s : State) : (drainAll s).fifo.sfifo = [] := rfl
@[simp] theorem drainAll_fifo_txfifo (s : State) : (drainAll s).fifo.txfifo = [] := rfl
@[simp] theorem drainAll_fifo_rxfifo (s : State) : (drainAll s).fifo.rxfifo = [] := rfl
@[simp] theorem drainAll_cfg (s : State) : (drainAll s).cfg = s.cfg := rfl
@[simp] theorem drainAll_tst (s : State) : (drainAll s).tst = s.tst := rfl
@[simp] theorem drainAll_ibi (s : State) : (drainAll s).ibi = s.ibi := rfl
@[simp] theorem drainAll_daa (s : State) : (drainAll s).daa = s.daa := rfl
@[simp] theorem drainAll_dec (s : State) : (drainAll s).dec = s.dec := rfl
@[simp] theorem drainAll_seq (s : State) : (drainAll s).seq = s.seq := rfl
@[simp] theorem drainAll_tgt (s : State) : (drainAll s).tgt = s.tgt := rfl
@[simp] theorem drainAll_snap (s : State) : (drainAll s).snap = s.snap := rfl
@[simp] theorem drainAll_arg (s : State) : (drainAll s).arg = s.arg := rfl
@[simp] theorem drainAll_mem (s : State) : (drainAll s).mem = s.mem := rfl
@[simp] theorem drainAll_work (s : State) : (drainAll s).work = s.work := rfl
@[simp] theorem drainAll_env (s : State) : (drainAll s).env = s.env := rfl

@[simp] theorem popTx_ctl (s : State) : (popTx s).ctl = s.ctl := rfl
@[simp] theorem popTx_rep (s : State) : (popTx s).rep = s.rep := rfl
@[simp] theorem popTx_cnt (s : State) : (popTx s).cnt = s.cnt := rfl
@[simp] theorem popTx_fifo_cfifo (s : State) : (popTx s).fifo.cfifo = s.fifo.cfifo := rfl
@[simp] theorem popTx_fifo_sfifo (s : State) : (popTx s).fifo.sfifo = s.fifo.sfifo := rfl
@[simp] theorem popTx_fifo_txfifo (s : State) : (popTx s).fifo.txfifo = s.fifo.txfifo.tail := rfl
@[simp] theorem popTx_fifo_rxfifo (s : State) : (popTx s).fifo.rxfifo = s.fifo.rxfifo := rfl
@[simp] theorem popTx_cfg (s : State) : (popTx s).cfg = s.cfg := rfl
@[simp] theorem popTx_tst (s : State) : (popTx s).tst = s.tst := rfl
@[simp] theorem popTx_ibi (s : State) : (popTx s).ibi = s.ibi := rfl
@[simp] theorem popTx_daa (s : State) : (popTx s).daa = s.daa := rfl
@[simp] theorem popTx_dec (s : State) : (popTx s).dec = s.dec := rfl
@[simp] theorem popTx_seq (s : State) : (popTx s).seq = s.seq := rfl
@[simp] theorem popTx_tgt (s : State) : (popTx s).tgt = s.tgt := rfl
@[simp] theorem popTx_snap (s : State) : (popTx s).snap = s.snap := rfl
@[simp] theorem popTx_arg (s : State) : (popTx s).arg = s.arg := rfl
@[simp] theorem popTx_mem (s : State) : (popTx s).mem = s.mem := rfl
@[simp] theorem popTx_work (s : State) : (popTx s).work = s.work := rfl
@[simp] theorem popTx_env (s : State) : (popTx s).env = s.env := rfl

@[simp] theorem countByte_ctl (s : State) : (countByte s).ctl = s.ctl := rfl
@[simp] theorem countByte_rep (s : State) : (countByte s).rep = s.rep := rfl
@[simp] theorem countByte_cnt_datacnt (s : State) : (countByte s).cnt.datacnt = (s.cnt.datacnt + 1) := rfl
@[simp] theorem countByte_cnt_msgcnt (s : State) : (countByte s).cnt.msgcnt = s.cnt.msgcnt := rfl
@[simp] theorem countByte_cnt_ctrlrem (s : State) : (countByte s).cnt.ctrlrem = s.cnt.ctrlrem := rfl
@[simp] theorem countByte_cnt_txrem (s : State) : (countByte s).cnt.txrem = s.cnt.txrem := rfl
@[simp] theorem countByte_cnt_rxrem (s : State) : (countByte s).cnt.rxrem = s.cnt.rxrem := rfl
@[simp] theorem countByte_cnt_ctrlptr (s : State) : (countByte s).cnt.ctrlptr = s.cnt.ctrlptr := rfl
@[simp] theorem countByte_cnt_txptr (s : State) : (countByte s).cnt.txptr = s.cnt.txptr := rfl
@[simp] theorem countByte_cnt_rxptr (s : State) : (countByte s).cnt.rxptr = s.cnt.rxptr := rfl
@[simp] theorem countByte_cnt_ctxaddr (s : State) : (countByte s).cnt.ctxaddr = s.cnt.ctxaddr := rfl
@[simp] theorem countByte_fifo (s : State) : (countByte s).fifo = s.fifo := rfl
@[simp] theorem countByte_cfg (s : State) : (countByte s).cfg = s.cfg := rfl
@[simp] theorem countByte_tst (s : State) : (countByte s).tst = s.tst := rfl
@[simp] theorem countByte_ibi (s : State) : (countByte s).ibi = s.ibi := rfl
@[simp] theorem countByte_daa (s : State) : (countByte s).daa = s.daa := rfl
@[simp] theorem countByte_dec (s : State) : (countByte s).dec = s.dec := rfl
@[simp] theorem countByte_seq (s : State) : (countByte s).seq = s.seq := rfl
@[simp] theorem countByte_tgt (s : State) : (countByte s).tgt = s.tgt := rfl
@[simp] theorem countByte_snap (s : State) : (countByte s).snap = s.snap := rfl
@[simp] theorem countByte_arg (s : State) : (countByte s).arg = s.arg := rfl
@[simp] theorem countByte_mem (s : State) : (countByte s).mem = s.mem := rfl
@[simp] theorem countByte_work (s : State) : (countByte s).work = s.work := rfl
@[simp] theorem countByte_env (s : State) : (countByte s).env = s.env := rfl

@[simp] theorem countCur_ctl (s : State) : (countCur s).ctl = s.ctl := rfl
@[simp] theorem countCur_rep (s : State) : (countCur s).rep = s.rep := rfl
@[simp] theorem countCur_cnt_datacnt (s : State) : (countCur s).cnt.datacnt = (s.cnt.datacnt + 1) := rfl
@[simp] theorem countCur_cnt_msgcnt (s : State) : (countCur s).cnt.msgcnt = s.cnt.msgcnt := rfl
@[simp] theorem countCur_cnt_ctrlrem (s : State) : (countCur s).cnt.ctrlrem = s.cnt.ctrlrem := rfl
@[simp] theorem countCur_cnt_txrem (s : State) : (countCur s).cnt.txrem = s.cnt.txrem := rfl
@[simp] theorem countCur_cnt_rxrem (s : State) : (countCur s).cnt.rxrem = s.cnt.rxrem := rfl
@[simp] theorem countCur_cnt_ctrlptr (s : State) : (countCur s).cnt.ctrlptr = s.cnt.ctrlptr := rfl
@[simp] theorem countCur_cnt_txptr (s : State) : (countCur s).cnt.txptr = s.cnt.txptr := rfl
@[simp] theorem countCur_cnt_rxptr (s : State) : (countCur s).cnt.rxptr = s.cnt.rxptr := rfl
@[simp] theorem countCur_cnt_ctxaddr (s : State) : (countCur s).cnt.ctxaddr = s.cnt.ctxaddr := rfl
@[simp] theorem countCur_fifo (s : State) : (countCur s).fifo = s.fifo := rfl
@[simp] theorem countCur_cfg (s : State) : (countCur s).cfg = s.cfg := rfl
@[simp] theorem countCur_tst (s : State) : (countCur s).tst = s.tst := rfl
@[simp] theorem countCur_ibi (s : State) : (countCur s).ibi = s.ibi := rfl
@[simp] theorem countCur_daa (s : State) : (countCur s).daa = s.daa := rfl
@[simp] theorem countCur_dec (s : State) : (countCur s).dec = s.dec := rfl
@[simp] theorem countCur_seq_phase (s : State) : (countCur s).seq.phase = s.seq.phase := rfl
@[simp] theorem countCur_seq_cur (s : State) : (countCur s).seq.cur = s.seq.cur := rfl
@[simp] theorem countCur_seq_curdone (s : State) : (countCur s).seq.curdone = (s.seq.curdone + 1) := rfl
@[simp] theorem countCur_seq_frame (s : State) : (countCur s).seq.frame = s.seq.frame := rfl
@[simp] theorem countCur_seq_ccchdr (s : State) : (countCur s).seq.ccchdr = s.seq.ccchdr := rfl
@[simp] theorem countCur_seq_early (s : State) : (countCur s).seq.early = s.seq.early := rfl
@[simp] theorem countCur_seq_nackb (s : State) : (countCur s).seq.nackb = s.seq.nackb := rfl
@[simp] theorem countCur_seq_bws (s : State) : (countCur s).seq.bws = s.seq.bws := rfl
@[simp] theorem countCur_seq_ccclast (s : State) : (countCur s).seq.ccclast = s.seq.ccclast := rfl
@[simp] theorem countCur_seq_handover (s : State) : (countCur s).seq.handover = s.seq.handover := rfl
@[simp] theorem countCur_tgt (s : State) : (countCur s).tgt = s.tgt := rfl
@[simp] theorem countCur_snap (s : State) : (countCur s).snap = s.snap := rfl
@[simp] theorem countCur_arg (s : State) : (countCur s).arg = s.arg := rfl
@[simp] theorem countCur_mem (s : State) : (countCur s).mem = s.mem := rfl
@[simp] theorem countCur_work (s : State) : (countCur s).work = s.work := rfl
@[simp] theorem countCur_env (s : State) : (countCur s).env = s.env := rfl

@[simp] theorem beginRequest_ctl (a : Addr7) (r : Bool) (s : State) : (beginRequest a r s).ctl = s.ctl := rfl
@[simp] theorem beginRequest_rep (a : Addr7) (r : Bool) (s : State) : (beginRequest a r s).rep = s.rep := rfl
@[simp] theorem beginRequest_cnt (a : Addr7) (r : Bool) (s : State) : (beginRequest a r s).cnt = s.cnt := rfl
@[simp] theorem beginRequest_fifo (a : Addr7) (r : Bool) (s : State) : (beginRequest a r s).fifo = s.fifo := rfl
@[simp] theorem beginRequest_cfg (a : Addr7) (r : Bool) (s : State) : (beginRequest a r s).cfg = s.cfg := rfl
@[simp] theorem beginRequest_tst (a : Addr7) (r : Bool) (s : State) : (beginRequest a r s).tst = s.tst := rfl
@[simp] theorem beginRequest_ibi (a : Addr7) (r : Bool) (s : State) : (beginRequest a r s).ibi = s.ibi := rfl
@[simp] theorem beginRequest_daa (a : Addr7) (r : Bool) (s : State) : (beginRequest a r s).daa = s.daa := rfl
@[simp] theorem beginRequest_dec (a : Addr7) (r : Bool) (s : State) : (beginRequest a r s).dec = s.dec := rfl
@[simp] theorem beginRequest_seq_phase (a : Addr7) (r : Bool) (s : State) : (beginRequest a r s).seq.phase = s.seq.phase := rfl
@[simp] theorem beginRequest_seq_cur (a : Addr7) (r : Bool) (s : State) : (beginRequest a r s).seq.cur = s.seq.cur := rfl
@[simp] theorem beginRequest_seq_curdone (a : Addr7) (r : Bool) (s : State) : (beginRequest a r s).seq.curdone = s.seq.curdone := rfl
@[simp] theorem beginRequest_seq_frame (a : Addr7) (r : Bool) (s : State) : (beginRequest a r s).seq.frame = true := rfl
@[simp] theorem beginRequest_seq_ccchdr (a : Addr7) (r : Bool) (s : State) : (beginRequest a r s).seq.ccchdr = s.seq.ccchdr := rfl
@[simp] theorem beginRequest_seq_early (a : Addr7) (r : Bool) (s : State) : (beginRequest a r s).seq.early = s.seq.early := rfl
@[simp] theorem beginRequest_seq_nackb (a : Addr7) (r : Bool) (s : State) : (beginRequest a r s).seq.nackb = s.seq.nackb := rfl
@[simp] theorem beginRequest_seq_bws (a : Addr7) (r : Bool) (s : State) : (beginRequest a r s).seq.bws = s.seq.bws := rfl
@[simp] theorem beginRequest_seq_ccclast (a : Addr7) (r : Bool) (s : State) : (beginRequest a r s).seq.ccclast = s.seq.ccclast := rfl
@[simp] theorem beginRequest_seq_handover (a : Addr7) (r : Bool) (s : State) : (beginRequest a r s).seq.handover = s.seq.handover := rfl
@[simp] theorem beginRequest_tgt (a : Addr7) (r : Bool) (s : State) : (beginRequest a r s).tgt = s.tgt := rfl
@[simp] theorem beginRequest_snap (a : Addr7) (r : Bool) (s : State) : (beginRequest a r s).snap = s.snap := rfl
@[simp] theorem beginRequest_arg (a : Addr7) (r : Bool) (s : State) : (beginRequest a r s).arg = s.arg := rfl
@[simp] theorem beginRequest_mem (a : Addr7) (r : Bool) (s : State) : (beginRequest a r s).mem = s.mem := rfl
@[simp] theorem beginRequest_work_micro (a : Addr7) (r : Bool) (s : State) : (beginRequest a r s).work.micro = s.work.micro := rfl
@[simp] theorem beginRequest_work_request (a : Addr7) (r : Bool) (s : State) : (beginRequest a r s).work.request = (.ack a r) := rfl
@[simp] theorem beginRequest_work_rxHold (a : Addr7) (r : Bool) (s : State) : (beginRequest a r s).work.rxHold = s.work.rxHold := rfl
@[simp] theorem beginRequest_work_lastRx (a : Addr7) (r : Bool) (s : State) : (beginRequest a r s).work.lastRx = s.work.lastRx := rfl
@[simp] theorem beginRequest_work_opAddr (a : Addr7) (r : Bool) (s : State) : (beginRequest a r s).work.opAddr = s.work.opAddr := rfl
@[simp] theorem beginRequest_work_opData (a : Addr7) (r : Bool) (s : State) : (beginRequest a r s).work.opData = s.work.opData := rfl
@[simp] theorem beginRequest_work_opI2c (a : Addr7) (r : Bool) (s : State) : (beginRequest a r s).work.opI2c = s.work.opI2c := rfl
@[simp] theorem beginRequest_work_opOk (a : Addr7) (r : Bool) (s : State) : (beginRequest a r s).work.opOk = s.work.opOk := rfl
@[simp] theorem beginRequest_work_trial (a : Addr7) (r : Bool) (s : State) : (beginRequest a r s).work.trial = s.work.trial := rfl
@[simp] theorem beginRequest_work_trials (a : Addr7) (r : Bool) (s : State) : (beginRequest a r s).work.trials = s.work.trials := rfl
@[simp] theorem beginRequest_work_rxBase (a : Addr7) (r : Bool) (s : State) : (beginRequest a r s).work.rxBase = s.work.rxBase := rfl
@[simp] theorem beginRequest_work_rxCap (a : Addr7) (r : Bool) (s : State) : (beginRequest a r s).work.rxCap = s.work.rxCap := rfl
@[simp] theorem beginRequest_work_listOvr (a : Addr7) (r : Bool) (s : State) : (beginRequest a r s).work.listOvr = s.work.listOvr := rfl
@[simp] theorem beginRequest_work_dmaEngine (a : Addr7) (r : Bool) (s : State) : (beginRequest a r s).work.dmaEngine = s.work.dmaEngine := rfl
@[simp] theorem beginRequest_work_draws (a : Addr7) (r : Bool) (s : State) : (beginRequest a r s).work.draws = s.work.draws := rfl
@[simp] theorem beginRequest_env (a : Addr7) (r : Bool) (s : State) : (beginRequest a r s).env = s.env := rfl

@[simp] theorem requestStop_ctl (n : RequestNote) (s : State) : (requestStop n s).ctl = s.ctl := rfl
@[simp] theorem requestStop_rep (n : RequestNote) (s : State) : (requestStop n s).rep = s.rep := rfl
@[simp] theorem requestStop_cnt (n : RequestNote) (s : State) : (requestStop n s).cnt = s.cnt := rfl
@[simp] theorem requestStop_fifo (n : RequestNote) (s : State) : (requestStop n s).fifo = s.fifo := rfl
@[simp] theorem requestStop_cfg (n : RequestNote) (s : State) : (requestStop n s).cfg = s.cfg := rfl
@[simp] theorem requestStop_tst (n : RequestNote) (s : State) : (requestStop n s).tst = s.tst := rfl
@[simp] theorem requestStop_ibi (n : RequestNote) (s : State) : (requestStop n s).ibi = s.ibi := rfl
@[simp] theorem requestStop_daa (n : RequestNote) (s : State) : (requestStop n s).daa = s.daa := rfl
@[simp] theorem requestStop_dec (n : RequestNote) (s : State) : (requestStop n s).dec = s.dec := rfl
@[simp] theorem requestStop_seq (n : RequestNote) (s : State) : (requestStop n s).seq = s.seq := rfl
@[simp] theorem requestStop_tgt (n : RequestNote) (s : State) : (requestStop n s).tgt = s.tgt := rfl
@[simp] theorem requestStop_snap (n : RequestNote) (s : State) : (requestStop n s).snap = s.snap := rfl
@[simp] theorem requestStop_arg (n : RequestNote) (s : State) : (requestStop n s).arg = s.arg := rfl
@[simp] theorem requestStop_mem (n : RequestNote) (s : State) : (requestStop n s).mem = s.mem := rfl
@[simp] theorem requestStop_work_micro (n : RequestNote) (s : State) : (requestStop n s).work.micro = s.work.micro := rfl
@[simp] theorem requestStop_work_request (n : RequestNote) (s : State) : (requestStop n s).work.request = (.stop n) := rfl
@[simp] theorem requestStop_work_rxHold (n : RequestNote) (s : State) : (requestStop n s).work.rxHold = s.work.rxHold := rfl
@[simp] theorem requestStop_work_lastRx (n : RequestNote) (s : State) : (requestStop n s).work.lastRx = s.work.lastRx := rfl
@[simp] theorem requestStop_work_opAddr (n : RequestNote) (s : State) : (requestStop n s).work.opAddr = s.work.opAddr := rfl
@[simp] theorem requestStop_work_opData (n : RequestNote) (s : State) : (requestStop n s).work.opData = s.work.opData := rfl
@[simp] theorem requestStop_work_opI2c (n : RequestNote) (s : State) : (requestStop n s).work.opI2c = s.work.opI2c := rfl
@[simp] theorem requestStop_work_opOk (n : RequestNote) (s : State) : (requestStop n s).work.opOk = s.work.opOk := rfl
@[simp] theorem requestStop_work_trial (n : RequestNote) (s : State) : (requestStop n s).work.trial = s.work.trial := rfl
@[simp] theorem requestStop_work_trials (n : RequestNote) (s : State) : (requestStop n s).work.trials = s.work.trials := rfl
@[simp] theorem requestStop_work_rxBase (n : RequestNote) (s : State) : (requestStop n s).work.rxBase = s.work.rxBase := rfl
@[simp] theorem requestStop_work_rxCap (n : RequestNote) (s : State) : (requestStop n s).work.rxCap = s.work.rxCap := rfl
@[simp] theorem requestStop_work_listOvr (n : RequestNote) (s : State) : (requestStop n s).work.listOvr = s.work.listOvr := rfl
@[simp] theorem requestStop_work_dmaEngine (n : RequestNote) (s : State) : (requestStop n s).work.dmaEngine = s.work.dmaEngine := rfl
@[simp] theorem requestStop_work_draws (n : RequestNote) (s : State) : (requestStop n s).work.draws = s.work.draws := rfl
@[simp] theorem requestStop_env (n : RequestNote) (s : State) : (requestStop n s).env = s.env := rfl

@[simp] theorem recordRequest_ctl (a : Addr7) (r : Bool) (k : BitVec 2) (s : State) : (recordRequest a r k s).ctl = s.ctl := rfl
@[simp] theorem recordRequest_rep (a : Addr7) (r : Bool) (k : BitVec 2) (s : State) : (recordRequest a r k s).rep = s.rep := rfl
@[simp] theorem recordRequest_cnt (a : Addr7) (r : Bool) (k : BitVec 2) (s : State) : (recordRequest a r k s).cnt = s.cnt := rfl
@[simp] theorem recordRequest_fifo (a : Addr7) (r : Bool) (k : BitVec 2) (s : State) : (recordRequest a r k s).fifo = s.fifo := rfl
@[simp] theorem recordRequest_cfg (a : Addr7) (r : Bool) (k : BitVec 2) (s : State) : (recordRequest a r k s).cfg = s.cfg := rfl
@[simp] theorem recordRequest_tst (a : Addr7) (r : Bool) (k : BitVec 2) (s : State) : (recordRequest a r k s).tst = s.tst := rfl
@[simp] theorem recordRequest_ibi_addr (a : Addr7) (r : Bool) (k : BitVec 2) (s : State) : (recordRequest a r k s).ibi.addr = a := rfl
@[simp] theorem recordRequest_ibi_rnw (a : Addr7) (r : Bool) (k : BitVec 2) (s : State) : (recordRequest a r k s).ibi.rnw = r := rfl
@[simp] theorem recordRequest_ibi_cnt (a : Addr7) (r : Bool) (k : BitVec 2) (s : State) : (recordRequest a r k s).ibi.cnt = 0 := rfl
@[simp] theorem recordRequest_ibi_kind (a : Addr7) (r : Bool) (k : BitVec 2) (s : State) : (recordRequest a r k s).ibi.kind = k := rfl
@[simp] theorem recordRequest_ibi_data (a : Addr7) (r : Bool) (k : BitVec 2) (s : State) : (recordRequest a r k s).ibi.data = s.ibi.data := rfl
@[simp] theorem recordRequest_daa (a : Addr7) (r : Bool) (k : BitVec 2) (s : State) : (recordRequest a r k s).daa = s.daa := rfl
@[simp] theorem recordRequest_dec (a : Addr7) (r : Bool) (k : BitVec 2) (s : State) : (recordRequest a r k s).dec = s.dec := rfl
@[simp] theorem recordRequest_seq (a : Addr7) (r : Bool) (k : BitVec 2) (s : State) : (recordRequest a r k s).seq = s.seq := rfl
@[simp] theorem recordRequest_tgt (a : Addr7) (r : Bool) (k : BitVec 2) (s : State) : (recordRequest a r k s).tgt = s.tgt := rfl
@[simp] theorem recordRequest_snap (a : Addr7) (r : Bool) (k : BitVec 2) (s : State) : (recordRequest a r k s).snap = s.snap := rfl
@[simp] theorem recordRequest_arg (a : Addr7) (r : Bool) (k : BitVec 2) (s : State) : (recordRequest a r k s).arg = s.arg := rfl
@[simp] theorem recordRequest_mem (a : Addr7) (r : Bool) (k : BitVec 2) (s : State) : (recordRequest a r k s).mem = s.mem := rfl
@[simp] theorem recordRequest_work (a : Addr7) (r : Bool) (k : BitVec 2) (s : State) : (recordRequest a r k s).work = s.work := rfl
@[simp] theorem recordRequest_env (a : Addr7) (r : Bool) (k : BitVec 2) (s : State) : (recordRequest a r k s).env = s.env := rfl

@[simp] theorem storeIbiByte_ctl (k : Nat) (b : Byte) (s : State) : (storeIbiByte k b s).ctl = s.ctl := rfl
@[simp] theorem storeIbiByte_rep (k : Nat) (b : Byte) (s : State) : (storeIbiByte k b s).rep = s.rep := rfl
@[simp] theorem storeIbiByte_cnt (k : Nat) (b : Byte) (s : State) : (storeIbiByte k b s).cnt = s.cnt := rfl
@[simp] theorem storeIbiByte_fifo (k : Nat) (b : Byte) (s : State) : (storeIbiByte k b s).fifo = s.fifo := rfl
@[simp] theorem storeIbiByte_cfg (k : Nat) (b : Byte) (s : State) : (storeIbiByte k b s).cfg = s.cfg := rfl
@[simp] theorem storeIbiByte_tst (k : Nat) (b : Byte) (s : State) : (storeIbiByte k b s).tst = s.tst := rfl
@[simp] theorem storeIbiByte_ibi_addr (k : Nat) (b : Byte) (s : State) : (storeIbiByte k b s).ibi.addr = s.ibi.addr := rfl
@[simp] theorem storeIbiByte_ibi_rnw (k : Nat) (b : Byte) (s : State) : (storeIbiByte k b s).ibi.rnw = s.ibi.rnw := rfl
@[simp] theorem storeIbiByte_ibi_cnt (k : Nat) (b : Byte) (s : State) : (storeIbiByte k b s).ibi.cnt = (BitVec.ofNat 8 (k + 1)) := rfl
@[simp] theorem storeIbiByte_ibi_kind (k : Nat) (b : Byte) (s : State) : (storeIbiByte k b s).ibi.kind = s.ibi.kind := rfl
@[simp] theorem storeIbiByte_ibi_data (k : Nat) (b : Byte) (s : State) : (storeIbiByte k b s).ibi.data = (s.ibi.data ||| place b (8 * k)) := rfl
@[simp] theorem storeIbiByte_daa (k : Nat) (b : Byte) (s : State) : (storeIbiByte k b s).daa = s.daa := rfl
@[simp] theorem storeIbiByte_dec (k : Nat) (b : Byte) (s : State) : (storeIbiByte k b s).dec = s.dec := rfl
@[simp] theorem storeIbiByte_seq (k : Nat) (b : Byte) (s : State) : (storeIbiByte k b s).seq = s.seq := rfl
@[simp] theorem storeIbiByte_tgt (k : Nat) (b : Byte) (s : State) : (storeIbiByte k b s).tgt = s.tgt := rfl
@[simp] theorem storeIbiByte_snap (k : Nat) (b : Byte) (s : State) : (storeIbiByte k b s).snap = s.snap := rfl
@[simp] theorem storeIbiByte_arg (k : Nat) (b : Byte) (s : State) : (storeIbiByte k b s).arg = s.arg := rfl
@[simp] theorem storeIbiByte_mem (k : Nat) (b : Byte) (s : State) : (storeIbiByte k b s).mem = s.mem := rfl
@[simp] theorem storeIbiByte_work (k : Nat) (b : Byte) (s : State) : (storeIbiByte k b s).work = s.work := rfl
@[simp] theorem storeIbiByte_env (k : Nat) (b : Byte) (s : State) : (storeIbiByte k b s).env = s.env := rfl

@[simp] theorem goto_ctl (m : Micro) (s : State) : (goto m s).ctl = s.ctl := rfl
@[simp] theorem goto_rep (m : Micro) (s : State) : (goto m s).rep = s.rep := rfl
@[simp] theorem goto_cnt (m : Micro) (s : State) : (goto m s).cnt = s.cnt := rfl
@[simp] theorem goto_fifo (m : Micro) (s : State) : (goto m s).fifo = s.fifo := rfl
@[simp] theorem goto_cfg (m : Micro) (s : State) : (goto m s).cfg = s.cfg := rfl
@[simp] theorem goto_tst (m : Micro) (s : State) : (goto m s).tst = s.tst := rfl
@[simp] theorem goto_ibi (m : Micro) (s : State) : (goto m s).ibi = s.ibi := rfl
@[simp] theorem goto_daa (m : Micro) (s : State) : (goto m s).daa = s.daa := rfl
@[simp] theorem goto_dec (m : Micro) (s : State) : (goto m s).dec = s.dec := rfl
@[simp] theorem goto_seq (m : Micro) (s : State) : (goto m s).seq = s.seq := rfl
@[simp] theorem goto_tgt (m : Micro) (s : State) : (goto m s).tgt = s.tgt := rfl
@[simp] theorem goto_snap (m : Micro) (s : State) : (goto m s).snap = s.snap := rfl
@[simp] theorem goto_arg (m : Micro) (s : State) : (goto m s).arg = s.arg := rfl
@[simp] theorem goto_mem (m : Micro) (s : State) : (goto m s).mem = s.mem := rfl
@[simp] theorem goto_work_micro (m : Micro) (s : State) : (goto m s).work.micro = m := rfl
@[simp] theorem goto_work_request (m : Micro) (s : State) : (goto m s).work.request = s.work.request := rfl
@[simp] theorem goto_work_rxHold (m : Micro) (s : State) : (goto m s).work.rxHold = s.work.rxHold := rfl
@[simp] theorem goto_work_lastRx (m : Micro) (s : State) : (goto m s).work.lastRx = s.work.lastRx := rfl
@[simp] theorem goto_work_opAddr (m : Micro) (s : State) : (goto m s).work.opAddr = s.work.opAddr := rfl
@[simp] theorem goto_work_opData (m : Micro) (s : State) : (goto m s).work.opData = s.work.opData := rfl
@[simp] theorem goto_work_opI2c (m : Micro) (s : State) : (goto m s).work.opI2c = s.work.opI2c := rfl
@[simp] theorem goto_work_opOk (m : Micro) (s : State) : (goto m s).work.opOk = s.work.opOk := rfl
@[simp] theorem goto_work_trial (m : Micro) (s : State) : (goto m s).work.trial = s.work.trial := rfl
@[simp] theorem goto_work_trials (m : Micro) (s : State) : (goto m s).work.trials = s.work.trials := rfl
@[simp] theorem goto_work_rxBase (m : Micro) (s : State) : (goto m s).work.rxBase = s.work.rxBase := rfl
@[simp] theorem goto_work_rxCap (m : Micro) (s : State) : (goto m s).work.rxCap = s.work.rxCap := rfl
@[simp] theorem goto_work_listOvr (m : Micro) (s : State) : (goto m s).work.listOvr = s.work.listOvr := rfl
@[simp] theorem goto_work_dmaEngine (m : Micro) (s : State) : (goto m s).work.dmaEngine = s.work.dmaEngine := rfl
@[simp] theorem goto_work_draws (m : Micro) (s : State) : (goto m s).work.draws = s.work.draws := rfl
@[simp] theorem goto_env (m : Micro) (s : State) : (goto m s).env = s.env := rfl

@[simp] theorem enter_ctl (p : SeqPhase) (m : Micro) (s : State) : (enter p m s).ctl = s.ctl := rfl
@[simp] theorem enter_rep (p : SeqPhase) (m : Micro) (s : State) : (enter p m s).rep = s.rep := rfl
@[simp] theorem enter_cnt (p : SeqPhase) (m : Micro) (s : State) : (enter p m s).cnt = s.cnt := rfl
@[simp] theorem enter_fifo (p : SeqPhase) (m : Micro) (s : State) : (enter p m s).fifo = s.fifo := rfl
@[simp] theorem enter_cfg (p : SeqPhase) (m : Micro) (s : State) : (enter p m s).cfg = s.cfg := rfl
@[simp] theorem enter_tst (p : SeqPhase) (m : Micro) (s : State) : (enter p m s).tst = s.tst := rfl
@[simp] theorem enter_ibi (p : SeqPhase) (m : Micro) (s : State) : (enter p m s).ibi = s.ibi := rfl
@[simp] theorem enter_daa (p : SeqPhase) (m : Micro) (s : State) : (enter p m s).daa = s.daa := rfl
@[simp] theorem enter_dec (p : SeqPhase) (m : Micro) (s : State) : (enter p m s).dec = s.dec := rfl
@[simp] theorem enter_seq_phase (p : SeqPhase) (m : Micro) (s : State) : (enter p m s).seq.phase = p := rfl
@[simp] theorem enter_seq_cur (p : SeqPhase) (m : Micro) (s : State) : (enter p m s).seq.cur = s.seq.cur := rfl
@[simp] theorem enter_seq_curdone (p : SeqPhase) (m : Micro) (s : State) : (enter p m s).seq.curdone = s.seq.curdone := rfl
@[simp] theorem enter_seq_frame (p : SeqPhase) (m : Micro) (s : State) : (enter p m s).seq.frame = s.seq.frame := rfl
@[simp] theorem enter_seq_ccchdr (p : SeqPhase) (m : Micro) (s : State) : (enter p m s).seq.ccchdr = s.seq.ccchdr := rfl
@[simp] theorem enter_seq_early (p : SeqPhase) (m : Micro) (s : State) : (enter p m s).seq.early = s.seq.early := rfl
@[simp] theorem enter_seq_nackb (p : SeqPhase) (m : Micro) (s : State) : (enter p m s).seq.nackb = s.seq.nackb := rfl
@[simp] theorem enter_seq_bws (p : SeqPhase) (m : Micro) (s : State) : (enter p m s).seq.bws = s.seq.bws := rfl
@[simp] theorem enter_seq_ccclast (p : SeqPhase) (m : Micro) (s : State) : (enter p m s).seq.ccclast = s.seq.ccclast := rfl
@[simp] theorem enter_seq_handover (p : SeqPhase) (m : Micro) (s : State) : (enter p m s).seq.handover = s.seq.handover := rfl
@[simp] theorem enter_tgt (p : SeqPhase) (m : Micro) (s : State) : (enter p m s).tgt = s.tgt := rfl
@[simp] theorem enter_snap (p : SeqPhase) (m : Micro) (s : State) : (enter p m s).snap = s.snap := rfl
@[simp] theorem enter_arg (p : SeqPhase) (m : Micro) (s : State) : (enter p m s).arg = s.arg := rfl
@[simp] theorem enter_mem (p : SeqPhase) (m : Micro) (s : State) : (enter p m s).mem = s.mem := rfl
@[simp] theorem enter_work_micro (p : SeqPhase) (m : Micro) (s : State) : (enter p m s).work.micro = m := rfl
@[simp] theorem enter_work_request (p : SeqPhase) (m : Micro) (s : State) : (enter p m s).work.request = s.work.request := rfl
@[simp] theorem enter_work_rxHold (p : SeqPhase) (m : Micro) (s : State) : (enter p m s).work.rxHold = s.work.rxHold := rfl
@[simp] theorem enter_work_lastRx (p : SeqPhase) (m : Micro) (s : State) : (enter p m s).work.lastRx = s.work.lastRx := rfl
@[simp] theorem enter_work_opAddr (p : SeqPhase) (m : Micro) (s : State) : (enter p m s).work.opAddr = s.work.opAddr := rfl
@[simp] theorem enter_work_opData (p : SeqPhase) (m : Micro) (s : State) : (enter p m s).work.opData = s.work.opData := rfl
@[simp] theorem enter_work_opI2c (p : SeqPhase) (m : Micro) (s : State) : (enter p m s).work.opI2c = s.work.opI2c := rfl
@[simp] theorem enter_work_opOk (p : SeqPhase) (m : Micro) (s : State) : (enter p m s).work.opOk = s.work.opOk := rfl
@[simp] theorem enter_work_trial (p : SeqPhase) (m : Micro) (s : State) : (enter p m s).work.trial = s.work.trial := rfl
@[simp] theorem enter_work_trials (p : SeqPhase) (m : Micro) (s : State) : (enter p m s).work.trials = s.work.trials := rfl
@[simp] theorem enter_work_rxBase (p : SeqPhase) (m : Micro) (s : State) : (enter p m s).work.rxBase = s.work.rxBase := rfl
@[simp] theorem enter_work_rxCap (p : SeqPhase) (m : Micro) (s : State) : (enter p m s).work.rxCap = s.work.rxCap := rfl
@[simp] theorem enter_work_listOvr (p : SeqPhase) (m : Micro) (s : State) : (enter p m s).work.listOvr = s.work.listOvr := rfl
@[simp] theorem enter_work_dmaEngine (p : SeqPhase) (m : Micro) (s : State) : (enter p m s).work.dmaEngine = s.work.dmaEngine := rfl
@[simp] theorem enter_work_draws (p : SeqPhase) (m : Micro) (s : State) : (enter p m s).work.draws = s.work.draws := rfl
@[simp] theorem enter_env (p : SeqPhase) (m : Micro) (s : State) : (enter p m s).env = s.env := rfl

@[simp] theorem messageDone_ctl (s : State) : (messageDone s).ctl = s.ctl := rfl
@[simp] theorem messageDone_rep (s : State) : (messageDone s).rep = s.rep := rfl
@[simp] theorem messageDone_cnt (s : State) : (messageDone s).cnt = s.cnt := rfl
@[simp] theorem messageDone_fifo (s : State) : (messageDone s).fifo = s.fifo := rfl
@[simp] theorem messageDone_cfg (s : State) : (messageDone s).cfg = s.cfg := rfl
@[simp] theorem messageDone_tst (s : State) : (messageDone s).tst = s.tst := rfl
@[simp] theorem messageDone_ibi (s : State) : (messageDone s).ibi = s.ibi := rfl
@[simp] theorem messageDone_daa (s : State) : (messageDone s).daa = s.daa := rfl
@[simp] theorem messageDone_dec (s : State) : (messageDone s).dec = s.dec := rfl
@[simp] theorem messageDone_seq_phase (s : State) : (messageDone s).seq.phase = .fin := rfl
@[simp] theorem messageDone_seq_cur (s : State) : (messageDone s).seq.cur = s.seq.cur := rfl
@[simp] theorem messageDone_seq_curdone (s : State) : (messageDone s).seq.curdone = s.seq.curdone := rfl
@[simp] theorem messageDone_seq_frame (s : State) : (messageDone s).seq.frame = s.seq.frame := rfl
@[simp] theorem messageDone_seq_ccchdr (s : State) : (messageDone s).seq.ccchdr = s.seq.ccchdr := rfl
@[simp] theorem messageDone_seq_early (s : State) : (messageDone s).seq.early = s.seq.early := rfl
@[simp] theorem messageDone_seq_nackb (s : State) : (messageDone s).seq.nackb = s.seq.nackb := rfl
@[simp] theorem messageDone_seq_bws (s : State) : (messageDone s).seq.bws = s.seq.bws := rfl
@[simp] theorem messageDone_seq_ccclast (s : State) : (messageDone s).seq.ccclast = s.seq.ccclast := rfl
@[simp] theorem messageDone_seq_handover (s : State) : (messageDone s).seq.handover = s.seq.handover := rfl
@[simp] theorem messageDone_tgt (s : State) : (messageDone s).tgt = s.tgt := rfl
@[simp] theorem messageDone_snap (s : State) : (messageDone s).snap = s.snap := rfl
@[simp] theorem messageDone_arg (s : State) : (messageDone s).arg = s.arg := rfl
@[simp] theorem messageDone_mem (s : State) : (messageDone s).mem = s.mem := rfl
@[simp] theorem messageDone_work_micro (s : State) : (messageDone s).work.micro = .start := rfl
@[simp] theorem messageDone_work_request (s : State) : (messageDone s).work.request = s.work.request := rfl
@[simp] theorem messageDone_work_rxHold (s : State) : (messageDone s).work.rxHold = s.work.rxHold := rfl
@[simp] theorem messageDone_work_lastRx (s : State) : (messageDone s).work.lastRx = s.work.lastRx := rfl
@[simp] theorem messageDone_work_opAddr (s : State) : (messageDone s).work.opAddr = s.work.opAddr := rfl
@[simp] theorem messageDone_work_opData (s : State) : (messageDone s).work.opData = s.work.opData := rfl
@[simp] theorem messageDone_work_opI2c (s : State) : (messageDone s).work.opI2c = s.work.opI2c := rfl
@[simp] theorem messageDone_work_opOk (s : State) : (messageDone s).work.opOk = s.work.opOk := rfl
@[simp] theorem messageDone_work_trial (s : State) : (messageDone s).work.trial = s.work.trial := rfl
@[simp] theorem messageDone_work_trials (s : State) : (messageDone s).work.trials = s.work.trials := rfl
@[simp] theorem messageDone_work_rxBase (s : State) : (messageDone s).work.rxBase = s.work.rxBase := rfl
@[simp] theorem messageDone_work_rxCap (s : State) : (messageDone s).work.rxCap = s.work.rxCap := rfl
@[simp] theorem messageDone_work_listOvr (s : State) : (messageDone s).work.listOvr = s.work.listOvr := rfl
@[simp] theorem messageDone_work_dmaEngine (s : State) : (messageDone s).work.dmaEngine = s.work.dmaEngine := rfl
@[simp] theorem messageDone_work_draws (s : State) : (messageDone s).work.draws = s.work.draws := rfl
@[simp] theorem messageDone_env (s : State) : (messageDone s).env = s.env := rfl

@[simp] theorem descriptorDone_ctl (s : State) : (descriptorDone s).ctl = s.ctl := rfl
@[simp] theorem descriptorDone_rep (s : State) : (descriptorDone s).rep = s.rep := rfl
@[simp] theorem descriptorDone_cnt_datacnt (s : State) : (descriptorDone s).cnt.datacnt = s.cnt.datacnt := rfl
@[simp] theorem descriptorDone_cnt_msgcnt (s : State) : (descriptorDone s).cnt.msgcnt = (s.cnt.msgcnt + 1) := rfl
@[simp] theorem descriptorDone_cnt_ctrlrem (s : State) : (descriptorDone s).cnt.ctrlrem = s.cnt.ctrlrem := rfl
@[simp] theorem descriptorDone_cnt_txrem (s : State) : (descriptorDone s).cnt.txrem = s.cnt.txrem := rfl
@[simp] theorem descriptorDone_cnt_rxrem (s : State) : (descriptorDone s).cnt.rxrem = s.cnt.rxrem := rfl
@[simp] theorem descriptorDone_cnt_ctrlptr (s : State) : (descriptorDone s).cnt.ctrlptr = s.cnt.ctrlptr := rfl
@[simp] theorem descriptorDone_cnt_txptr (s : State) : (descriptorDone s).cnt.txptr = s.cnt.txptr := rfl
@[simp] theorem descriptorDone_cnt_rxptr (s : State) : (descriptorDone s).cnt.rxptr = s.cnt.rxptr := rfl
@[simp] theorem descriptorDone_cnt_ctxaddr (s : State) : (descriptorDone s).cnt.ctxaddr = s.cnt.ctxaddr := rfl
@[simp] theorem descriptorDone_fifo_cfifo (s : State) : (descriptorDone s).fifo.cfifo = s.fifo.cfifo := rfl
@[simp] theorem descriptorDone_fifo_sfifo (s : State) : (descriptorDone s).fifo.sfifo = (if s.cfg.sfen then s.fifo.sfifo ++ [statusOfCur s] else s.fifo.sfifo) := rfl
@[simp] theorem descriptorDone_fifo_txfifo (s : State) : (descriptorDone s).fifo.txfifo = s.fifo.txfifo := rfl
@[simp] theorem descriptorDone_fifo_rxfifo (s : State) : (descriptorDone s).fifo.rxfifo = s.fifo.rxfifo := rfl
@[simp] theorem descriptorDone_cfg (s : State) : (descriptorDone s).cfg = s.cfg := rfl
@[simp] theorem descriptorDone_tst (s : State) : (descriptorDone s).tst = s.tst := rfl
@[simp] theorem descriptorDone_ibi (s : State) : (descriptorDone s).ibi = s.ibi := rfl
@[simp] theorem descriptorDone_daa (s : State) : (descriptorDone s).daa = s.daa := rfl
@[simp] theorem descriptorDone_dec (s : State) : (descriptorDone s).dec = s.dec := rfl
@[simp] theorem descriptorDone_seq (s : State) : (descriptorDone s).seq = s.seq := rfl
@[simp] theorem descriptorDone_tgt (s : State) : (descriptorDone s).tgt = s.tgt := rfl
@[simp] theorem descriptorDone_snap (s : State) : (descriptorDone s).snap = s.snap := rfl
@[simp] theorem descriptorDone_arg (s : State) : (descriptorDone s).arg = s.arg := rfl
@[simp] theorem descriptorDone_mem (s : State) : (descriptorDone s).mem = s.mem := rfl
@[simp] theorem descriptorDone_work (s : State) : (descriptorDone s).work = s.work := rfl
@[simp] theorem descriptorDone_env (s : State) : (descriptorDone s).env = s.env := rfl

@[simp] theorem daaEnter_ctl (p : DaaPhase) (s : State) : (daaEnter p s).ctl = s.ctl := rfl
@[simp] theorem daaEnter_rep (p : DaaPhase) (s : State) : (daaEnter p s).rep = s.rep := rfl
@[simp] theorem daaEnter_cnt (p : DaaPhase) (s : State) : (daaEnter p s).cnt = s.cnt := rfl
@[simp] theorem daaEnter_fifo (p : DaaPhase) (s : State) : (daaEnter p s).fifo = s.fifo := rfl
@[simp] theorem daaEnter_cfg (p : DaaPhase) (s : State) : (daaEnter p s).cfg = s.cfg := rfl
@[simp] theorem daaEnter_tst (p : DaaPhase) (s : State) : (daaEnter p s).tst = s.tst := rfl
@[simp] theorem daaEnter_ibi (p : DaaPhase) (s : State) : (daaEnter p s).ibi = s.ibi := rfl
@[simp] theorem daaEnter_daa_cnt (p : DaaPhase) (s : State) : (daaEnter p s).daa.cnt = s.daa.cnt := rfl
@[simp] theorem daaEnter_daa_pl0 (p : DaaPhase) (s : State) : (daaEnter p s).daa.pl0 = s.daa.pl0 := rfl
@[simp] theorem daaEnter_daa_pl1 (p : DaaPhase) (s : State) : (daaEnter p s).daa.pl1 = s.daa.pl1 := rfl
@[simp] theorem daaEnter_daa_da (p : DaaPhase) (s : State) : (daaEnter p s).daa.da = s.daa.da := rfl
@[simp] theorem daaEnter_daa_phase (p : DaaPhase) (s : State) : (daaEnter p s).daa.phase = p := rfl
@[simp] theorem daaEnter_daa_next (p : DaaPhase) (s : State) : (daaEnter p s).daa.next = s.daa.next := rfl
@[simp] theorem daaEnter_daa_ptr (p : DaaPhase) (s : State) : (daaEnter p s).daa.ptr = s.daa.ptr := rfl
@[simp] theorem daaEnter_daa_room (p : DaaPhase) (s : State) : (daaEnter p s).daa.room = s.daa.room := rfl
@[simp] theorem daaEnter_dec (p : DaaPhase) (s : State) : (daaEnter p s).dec = s.dec := rfl
@[simp] theorem daaEnter_seq (p : DaaPhase) (s : State) : (daaEnter p s).seq = s.seq := rfl
@[simp] theorem daaEnter_tgt (p : DaaPhase) (s : State) : (daaEnter p s).tgt = s.tgt := rfl
@[simp] theorem daaEnter_snap (p : DaaPhase) (s : State) : (daaEnter p s).snap = s.snap := rfl
@[simp] theorem daaEnter_arg (p : DaaPhase) (s : State) : (daaEnter p s).arg = s.arg := rfl
@[simp] theorem daaEnter_mem (p : DaaPhase) (s : State) : (daaEnter p s).mem = s.mem := rfl
@[simp] theorem daaEnter_work_micro (p : DaaPhase) (s : State) : (daaEnter p s).work.micro = .start := rfl
@[simp] theorem daaEnter_work_request (p : DaaPhase) (s : State) : (daaEnter p s).work.request = s.work.request := rfl
@[simp] theorem daaEnter_work_rxHold (p : DaaPhase) (s : State) : (daaEnter p s).work.rxHold = s.work.rxHold := rfl
@[simp] theorem daaEnter_work_lastRx (p : DaaPhase) (s : State) : (daaEnter p s).work.lastRx = s.work.lastRx := rfl
@[simp] theorem daaEnter_work_opAddr (p : DaaPhase) (s : State) : (daaEnter p s).work.opAddr = s.work.opAddr := rfl
@[simp] theorem daaEnter_work_opData (p : DaaPhase) (s : State) : (daaEnter p s).work.opData = s.work.opData := rfl
@[simp] theorem daaEnter_work_opI2c (p : DaaPhase) (s : State) : (daaEnter p s).work.opI2c = s.work.opI2c := rfl
@[simp] theorem daaEnter_work_opOk (p : DaaPhase) (s : State) : (daaEnter p s).work.opOk = s.work.opOk := rfl
@[simp] theorem daaEnter_work_trial (p : DaaPhase) (s : State) : (daaEnter p s).work.trial = s.work.trial := rfl
@[simp] theorem daaEnter_work_trials (p : DaaPhase) (s : State) : (daaEnter p s).work.trials = s.work.trials := rfl
@[simp] theorem daaEnter_work_rxBase (p : DaaPhase) (s : State) : (daaEnter p s).work.rxBase = s.work.rxBase := rfl
@[simp] theorem daaEnter_work_rxCap (p : DaaPhase) (s : State) : (daaEnter p s).work.rxCap = s.work.rxCap := rfl
@[simp] theorem daaEnter_work_listOvr (p : DaaPhase) (s : State) : (daaEnter p s).work.listOvr = s.work.listOvr := rfl
@[simp] theorem daaEnter_work_dmaEngine (p : DaaPhase) (s : State) : (daaEnter p s).work.dmaEngine = s.work.dmaEngine := rfl
@[simp] theorem daaEnter_work_draws (p : DaaPhase) (s : State) : (daaEnter p s).work.draws = s.work.draws := rfl
@[simp] theorem daaEnter_env (p : DaaPhase) (s : State) : (daaEnter p s).env = s.env := rfl

@[simp] theorem endWrite_ctl (s : State) : (endWrite s).ctl = s.ctl := rfl
@[simp] theorem endWrite_rep (s : State) : (endWrite s).rep = s.rep := rfl
@[simp] theorem endWrite_cnt_datacnt (s : State) : (endWrite s).cnt.datacnt = s.cnt.datacnt := rfl
@[simp] theorem endWrite_cnt_msgcnt (s : State) : (endWrite s).cnt.msgcnt = s.cnt.msgcnt := rfl
@[simp] theorem endWrite_cnt_ctrlrem (s : State) : (endWrite s).cnt.ctrlrem = s.cnt.ctrlrem := rfl
@[simp] theorem endWrite_cnt_txrem (s : State) : (endWrite s).cnt.txrem = s.cnt.txrem := rfl
@[simp] theorem endWrite_cnt_rxrem (s : State) : (endWrite s).cnt.rxrem = (s.cnt.rxrem - (s.tgt.tgtlen - s.cnt.datacnt)) := rfl
@[simp] theorem endWrite_cnt_ctrlptr (s : State) : (endWrite s).cnt.ctrlptr = s.cnt.ctrlptr := rfl
@[simp] theorem endWrite_cnt_txptr (s : State) : (endWrite s).cnt.txptr = s.cnt.txptr := rfl
@[simp] theorem endWrite_cnt_rxptr (s : State) : (endWrite s).cnt.rxptr = s.cnt.rxptr := rfl
@[simp] theorem endWrite_cnt_ctxaddr (s : State) : (endWrite s).cnt.ctxaddr = s.cnt.ctxaddr := rfl
@[simp] theorem endWrite_fifo (s : State) : (endWrite s).fifo = s.fifo := rfl
@[simp] theorem endWrite_cfg (s : State) : (endWrite s).cfg = s.cfg := rfl
@[simp] theorem endWrite_tst (s : State) : (endWrite s).tst = s.tst := rfl
@[simp] theorem endWrite_ibi (s : State) : (endWrite s).ibi = s.ibi := rfl
@[simp] theorem endWrite_daa (s : State) : (endWrite s).daa = s.daa := rfl
@[simp] theorem endWrite_dec (s : State) : (endWrite s).dec = s.dec := rfl
@[simp] theorem endWrite_seq (s : State) : (endWrite s).seq = s.seq := rfl
@[simp] theorem endWrite_tgt_phase (s : State) : (endWrite s).tgt.phase = s.tgt.phase := rfl
@[simp] theorem endWrite_tgt_ignstop (s : State) : (endWrite s).tgt.ignstop = s.tgt.ignstop := rfl
@[simp] theorem endWrite_tgt_ccccur (s : State) : (endWrite s).tgt.ccccur = s.tgt.ccccur := rfl
@[simp] theorem endWrite_tgt_cccbuf (s : State) : (endWrite s).tgt.cccbuf = s.tgt.cccbuf := rfl
@[simp] theorem endWrite_tgt_defbyte (s : State) : (endWrite s).tgt.defbyte = s.tgt.defbyte := rfl
@[simp] theorem endWrite_tgt_defv (s : State) : (endWrite s).tgt.defv = s.tgt.defv := rfl
@[simp] theorem endWrite_tgt_rspk (s : State) : (endWrite s).tgt.rspk = s.tgt.rspk := rfl
@[simp] theorem endWrite_tgt_tgtlen (s : State) : (endWrite s).tgt.tgtlen = s.tgt.tgtlen := rfl
@[simp] theorem endWrite_tgt_tgtend (s : State) : (endWrite s).tgt.tgtend = true := rfl
@[simp] theorem endWrite_tgt_handoff (s : State) : (endWrite s).tgt.handoff = s.tgt.handoff := rfl
@[simp] theorem endWrite_tgt_trq (s : State) : (endWrite s).tgt.trq = s.tgt.trq := rfl
@[simp] theorem endWrite_snap (s : State) : (endWrite s).snap = s.snap := rfl
@[simp] theorem endWrite_arg (s : State) : (endWrite s).arg = s.arg := rfl
@[simp] theorem endWrite_mem (s : State) : (endWrite s).mem = s.mem := rfl
@[simp] theorem endWrite_work (s : State) : (endWrite s).work = s.work := rfl
@[simp] theorem endWrite_env (s : State) : (endWrite s).env = s.env := rfl

@[simp] theorem endRead_ctl (s : State) : (endRead s).ctl = s.ctl := rfl
@[simp] theorem endRead_rep (s : State) : (endRead s).rep = s.rep := rfl
@[simp] theorem endRead_cnt_datacnt (s : State) : (endRead s).cnt.datacnt = s.cnt.datacnt := rfl
@[simp] theorem endRead_cnt_msgcnt (s : State) : (endRead s).cnt.msgcnt = s.cnt.msgcnt := rfl
@[simp] theorem endRead_cnt_ctrlrem (s : State) : (endRead s).cnt.ctrlrem = s.cnt.ctrlrem := rfl
@[simp] theorem endRead_cnt_txrem (s : State) : (endRead s).cnt.txrem = 0 := rfl
@[simp] theorem endRead_cnt_rxrem (s : State) : (endRead s).cnt.rxrem = s.cnt.rxrem := rfl
@[simp] theorem endRead_cnt_ctrlptr (s : State) : (endRead s).cnt.ctrlptr = s.cnt.ctrlptr := rfl
@[simp] theorem endRead_cnt_txptr (s : State) : (endRead s).cnt.txptr = s.cnt.txptr := rfl
@[simp] theorem endRead_cnt_rxptr (s : State) : (endRead s).cnt.rxptr = s.cnt.rxptr := rfl
@[simp] theorem endRead_cnt_ctxaddr (s : State) : (endRead s).cnt.ctxaddr = s.cnt.ctxaddr := rfl
@[simp] theorem endRead_fifo_cfifo (s : State) : (endRead s).fifo.cfifo = s.fifo.cfifo := rfl
@[simp] theorem endRead_fifo_sfifo (s : State) : (endRead s).fifo.sfifo = s.fifo.sfifo := rfl
@[simp] theorem endRead_fifo_txfifo (s : State) : (endRead s).fifo.txfifo = [] := rfl
@[simp] theorem endRead_fifo_rxfifo (s : State) : (endRead s).fifo.rxfifo = s.fifo.rxfifo := rfl
@[simp] theorem endRead_cfg (s : State) : (endRead s).cfg = s.cfg := rfl
@[simp] theorem endRead_tst (s : State) : (endRead s).tst = s.tst := rfl
@[simp] theorem endRead_ibi (s : State) : (endRead s).ibi = s.ibi := rfl
@[simp] theorem endRead_daa (s : State) : (endRead s).daa = s.daa := rfl
@[simp] theorem endRead_dec (s : State) : (endRead s).dec = s.dec := rfl
@[simp] theorem endRead_seq (s : State) : (endRead s).seq = s.seq := rfl
@[simp] theorem endRead_tgt_phase (s : State) : (endRead s).tgt.phase = s.tgt.phase := rfl
@[simp] theorem endRead_tgt_ignstop (s : State) : (endRead s).tgt.ignstop = s.tgt.ignstop := rfl
@[simp] theorem endRead_tgt_ccccur (s : State) : (endRead s).tgt.ccccur = s.tgt.ccccur := rfl
@[simp] theorem endRead_tgt_cccbuf (s : State) : (endRead s).tgt.cccbuf = s.tgt.cccbuf := rfl
@[simp] theorem endRead_tgt_defbyte (s : State) : (endRead s).tgt.defbyte = s.tgt.defbyte := rfl
@[simp] theorem endRead_tgt_defv (s : State) : (endRead s).tgt.defv = s.tgt.defv := rfl
@[simp] theorem endRead_tgt_rspk (s : State) : (endRead s).tgt.rspk = s.tgt.rspk := rfl
@[simp] theorem endRead_tgt_tgtlen (s : State) : (endRead s).tgt.tgtlen = s.tgt.tgtlen := rfl
@[simp] theorem endRead_tgt_tgtend (s : State) : (endRead s).tgt.tgtend = true := rfl
@[simp] theorem endRead_tgt_handoff (s : State) : (endRead s).tgt.handoff = s.tgt.handoff := rfl
@[simp] theorem endRead_tgt_trq (s : State) : (endRead s).tgt.trq = s.tgt.trq := rfl
@[simp] theorem endRead_snap (s : State) : (endRead s).snap = s.snap := rfl
@[simp] theorem endRead_arg (s : State) : (endRead s).arg = s.arg := rfl
@[simp] theorem endRead_mem (s : State) : (endRead s).mem = s.mem := rfl
@[simp] theorem endRead_work (s : State) : (endRead s).work = s.work := rfl
@[simp] theorem endRead_env (s : State) : (endRead s).env = s.env := rfl

@[simp] theorem ignore_ctl (u : Bool) (s : State) : (ignore u s).ctl = s.ctl := rfl
@[simp] theorem ignore_rep (u : Bool) (s : State) : (ignore u s).rep = s.rep := rfl
@[simp] theorem ignore_cnt (u : Bool) (s : State) : (ignore u s).cnt = s.cnt := rfl
@[simp] theorem ignore_fifo (u : Bool) (s : State) : (ignore u s).fifo = s.fifo := rfl
@[simp] theorem ignore_cfg (u : Bool) (s : State) : (ignore u s).cfg = s.cfg := rfl
@[simp] theorem ignore_tst (u : Bool) (s : State) : (ignore u s).tst = s.tst := rfl
@[simp] theorem ignore_ibi (u : Bool) (s : State) : (ignore u s).ibi = s.ibi := rfl
@[simp] theorem ignore_daa (u : Bool) (s : State) : (ignore u s).daa = s.daa := rfl
@[simp] theorem ignore_dec (u : Bool) (s : State) : (ignore u s).dec = s.dec := rfl
@[simp] theorem ignore_seq (u : Bool) (s : State) : (ignore u s).seq = s.seq := rfl
@[simp] theorem ignore_tgt_phase (u : Bool) (s : State) : (ignore u s).tgt.phase = .ignore := rfl
@[simp] theorem ignore_tgt_ignstop (u : Bool) (s : State) : (ignore u s).tgt.ignstop = u := rfl
@[simp] theorem ignore_tgt_ccccur (u : Bool) (s : State) : (ignore u s).tgt.ccccur = s.tgt.ccccur := rfl
@[simp] theorem ignore_tgt_cccbuf (u : Bool) (s : State) : (ignore u s).tgt.cccbuf = s.tgt.cccbuf := rfl
@[simp] theorem ignore_tgt_defbyte (u : Bool) (s : State) : (ignore u s).tgt.defbyte = s.tgt.defbyte := rfl
@[simp] theorem ignore_tgt_defv (u : Bool) (s : State) : (ignore u s).tgt.defv = s.tgt.defv := rfl
@[simp] theorem ignore_tgt_rspk (u : Bool) (s : State) : (ignore u s).tgt.rspk = s.tgt.rspk := rfl
@[simp] theorem ignore_tgt_tgtlen (u : Bool) (s : State) : (ignore u s).tgt.tgtlen = s.tgt.tgtlen := rfl
@[simp] theorem ignore_tgt_tgtend (u : Bool) (s : State) : (ignore u s).tgt.tgtend = s.tgt.tgtend := rfl
@[simp] theorem ignore_tgt_handoff (u : Bool) (s : State) : (ignore u s).tgt.handoff = s.tgt.handoff := rfl
@[simp] theorem ignore_tgt_trq (u : Bool) (s : State) : (ignore u s).tgt.trq = s.tgt.trq := rfl
@[simp] theorem ignore_snap (u : Bool) (s : State) : (ignore u s).snap = s.snap := rfl
@[simp] theorem ignore_arg (u : Bool) (s : State) : (ignore u s).arg = s.arg := rfl
@[simp] theorem ignore_mem (u : Bool) (s : State) : (ignore u s).mem = s.mem := rfl
@[simp] theorem ignore_work (u : Bool) (s : State) : (ignore u s).work = s.work := rfl
@[simp] theorem ignore_env (u : Bool) (s : State) : (ignore u s).env = s.env := rfl

@[simp] theorem toIgnore_ctl (s : State) : (toIgnore s).ctl = s.ctl := rfl
@[simp] theorem toIgnore_rep (s : State) : (toIgnore s).rep = s.rep := rfl
@[simp] theorem toIgnore_cnt (s : State) : (toIgnore s).cnt = s.cnt := rfl
@[simp] theorem toIgnore_fifo (s : State) : (toIgnore s).fifo = s.fifo := rfl
@[simp] theorem toIgnore_cfg (s : State) : (toIgnore s).cfg = s.cfg := rfl
@[simp] theorem toIgnore_tst (s : State) : (toIgnore s).tst = s.tst := rfl
@[simp] theorem toIgnore_ibi (s : State) : (toIgnore s).ibi = s.ibi := rfl
@[simp] theorem toIgnore_daa (s : State) : (toIgnore s).daa = s.daa := rfl
@[simp] theorem toIgnore_dec (s : State) : (toIgnore s).dec = s.dec := rfl
@[simp] theorem toIgnore_seq (s : State) : (toIgnore s).seq = s.seq := rfl
@[simp] theorem toIgnore_tgt_phase (s : State) : (toIgnore s).tgt.phase = .ignore := rfl
@[simp] theorem toIgnore_tgt_ignstop (s : State) : (toIgnore s).tgt.ignstop = s.tgt.ignstop := rfl
@[simp] theorem toIgnore_tgt_ccccur (s : State) : (toIgnore s).tgt.ccccur = s.tgt.ccccur := rfl
@[simp] theorem toIgnore_tgt_cccbuf (s : State) : (toIgnore s).tgt.cccbuf = s.tgt.cccbuf := rfl
@[simp] theorem toIgnore_tgt_defbyte (s : State) : (toIgnore s).tgt.defbyte = s.tgt.defbyte := rfl
@[simp] theorem toIgnore_tgt_defv (s : State) : (toIgnore s).tgt.defv = s.tgt.defv := rfl
@[simp] theorem toIgnore_tgt_rspk (s : State) : (toIgnore s).tgt.rspk = s.tgt.rspk := rfl
@[simp] theorem toIgnore_tgt_tgtlen (s : State) : (toIgnore s).tgt.tgtlen = s.tgt.tgtlen := rfl
@[simp] theorem toIgnore_tgt_tgtend (s : State) : (toIgnore s).tgt.tgtend = s.tgt.tgtend := rfl
@[simp] theorem toIgnore_tgt_handoff (s : State) : (toIgnore s).tgt.handoff = s.tgt.handoff := rfl
@[simp] theorem toIgnore_tgt_trq (s : State) : (toIgnore s).tgt.trq = s.tgt.trq := rfl
@[simp] theorem toIgnore_snap (s : State) : (toIgnore s).snap = s.snap := rfl
@[simp] theorem toIgnore_arg (s : State) : (toIgnore s).arg = s.arg := rfl
@[simp] theorem toIgnore_mem (s : State) : (toIgnore s).mem = s.mem := rfl
@[simp] theorem toIgnore_work (s : State) : (toIgnore s).work = s.work := rfl
@[simp] theorem toIgnore_env (s : State) : (toIgnore s).env = s.env := rfl

@[simp] theorem receiveCode_ctl (c : Byte) (p : TgtPhase) (s : State) : (receiveCode c p s).ctl = s.ctl := rfl
@[simp] theorem receiveCode_rep (c : Byte) (p : TgtPhase) (s : State) : (receiveCode c p s).rep = s.rep := rfl
@[simp] theorem receiveCode_cnt (c : Byte) (p : TgtPhase) (s : State) : (receiveCode c p s).cnt = s.cnt := rfl
@[simp] theorem receiveCode_fifo (c : Byte) (p : TgtPhase) (s : State) : (receiveCode c p s).fifo = s.fifo := rfl
@[simp] theorem receiveCode_cfg (c : Byte) (p : TgtPhase) (s : State) : (receiveCode c p s).cfg = s.cfg := rfl
@[simp] theorem receiveCode_tst (c : Byte) (p : TgtPhase) (s : State) : (receiveCode c p s).tst = s.tst := rfl
@[simp] theorem receiveCode_ibi (c : Byte) (p : TgtPhase) (s : State) : (receiveCode c p s).ibi = s.ibi := rfl
@[simp] theorem receiveCode_daa (c : Byte) (p : TgtPhase) (s : State) : (receiveCode c p s).daa = s.daa := rfl
@[simp] theorem receiveCode_dec (c : Byte) (p : TgtPhase) (s : State) : (receiveCode c p s).dec = s.dec := rfl
@[simp] theorem receiveCode_seq (c : Byte) (p : TgtPhase) (s : State) : (receiveCode c p s).seq = s.seq := rfl
@[simp] theorem receiveCode_tgt_phase (c : Byte) (p : TgtPhase) (s : State) : (receiveCode c p s).tgt.phase = p := rfl
@[simp] theorem receiveCode_tgt_ignstop (c : Byte) (p : TgtPhase) (s : State) : (receiveCode c p s).tgt.ignstop = s.tgt.ignstop := rfl
@[simp] theorem receiveCode_tgt_ccccur (c : Byte) (p : TgtPhase) (s : State) : (receiveCode c p s).tgt.ccccur = c := rfl
@[simp] theorem receiveCode_tgt_cccbuf (c : Byte) (p : TgtPhase) (s : State) : (receiveCode c p s).tgt.cccbuf = [] := rfl
@[simp] theorem receiveCode_tgt_defbyte (c : Byte) (p : TgtPhase) (s : State) : (receiveCode c p s).tgt.defbyte = s.tgt.defbyte := rfl
@[simp] theorem receiveCode_tgt_defv (c : Byte) (p : TgtPhase) (s : State) : (receiveCode c p s).tgt.defv = false := rfl
@[simp] theorem receiveCode_tgt_rspk (c : Byte) (p : TgtPhase) (s : State) : (receiveCode c p s).tgt.rspk = s.tgt.rspk := rfl
@[simp] theorem receiveCode_tgt_tgtlen (c : Byte) (p : TgtPhase) (s : State) : (receiveCode c p s).tgt.tgtlen = s.tgt.tgtlen := rfl
@[simp] theorem receiveCode_tgt_tgtend (c : Byte) (p : TgtPhase) (s : State) : (receiveCode c p s).tgt.tgtend = s.tgt.tgtend := rfl
@[simp] theorem receiveCode_tgt_handoff (c : Byte) (p : TgtPhase) (s : State) : (receiveCode c p s).tgt.handoff = s.tgt.handoff := rfl
@[simp] theorem receiveCode_tgt_trq (c : Byte) (p : TgtPhase) (s : State) : (receiveCode c p s).tgt.trq = s.tgt.trq := rfl
@[simp] theorem receiveCode_snap (c : Byte) (p : TgtPhase) (s : State) : (receiveCode c p s).snap = s.snap := rfl
@[simp] theorem receiveCode_arg (c : Byte) (p : TgtPhase) (s : State) : (receiveCode c p s).arg = s.arg := rfl
@[simp] theorem receiveCode_mem (c : Byte) (p : TgtPhase) (s : State) : (receiveCode c p s).mem = s.mem := rfl
@[simp] theorem receiveCode_work (c : Byte) (p : TgtPhase) (s : State) : (receiveCode c p s).work = s.work := rfl
@[simp] theorem receiveCode_env (c : Byte) (p : TgtPhase) (s : State) : (receiveCode c p s).env = s.env := rfl

end Sys2Proof.Machine
end

