-- ==== Sys2Proof/Laws/Ops.lean ====
section
/-! SUPPORT. What the shared operations can do, said once: the two outcomes of a PHY request, and which of the invariants of
Safety.lean each operation keeps. -/

namespace Sys2Proof.Machine

/-! ## PHY requests -/

/-- A PHY request does nothing, or takes an answer it admits, drives the request and goes on. -/
theorem phy_cases (r : PhyReq) (k : PhyAnswer → State → State) (s : State) :
    phy r k s = s ∨ ∃ a, s.env.cue = .answer a ∧ admits r a = true ∧ phy r k s = k a (drive (.req r) s) := by
  unfold phy
  split
  · rename_i a h
    split
    · rename_i ha
      exact .inr ⟨a, h, ha, rfl⟩
    · exact .inl rfl
  · exact .inl rfl

/-- A PHY request under an answer it admits. -/
theorem phy_answered {r : PhyReq} {k : PhyAnswer → State → State} {s : State} {a : PhyAnswer} (h : s.env.cue = .answer a)
    (ha : admits r a = true) : phy r k s = k a (drive (.req r) s) := by
  simp [phy, h, ha]

/-! ## The invariants but the lifecycle -/

/-- The pointers into system memory. -/
def pointerKey (s : State) : Nat × Nat × Nat × Nat × Nat × Nat :=
  (s.cnt.ctrlptr, s.cnt.txptr, s.cnt.rxptr, s.cnt.ctxaddr, s.daa.ptr, s.snap.nbufptr)

/-- From `s` to `t` every invariant of Safety.lean but `LifecycleOk` is kept. -/
structure Keeps (s t : State) : Prop where
  memory : MemoryOk s → MemoryOk t
  pointers : PointersOk s → PointersOk t
  listen : ListenOk s → ListenOk t
  addresses : AddressesOk s → AddressesOk t
  reserved : ReservedOk s → ReservedOk t
  capacity : s.env.params.legal = true → CapacityOk s → CapacityOk t
  params : t.env.params = s.env.params

theorem Keeps.refl (s : State) : Keeps s s := ⟨id, id, id, id, id, fun _ => id, rfl⟩

theorem Keeps.trans {s t u : State} (a : Keeps s t) (b : Keeps t u) : Keeps s u :=
  ⟨b.memory ∘ a.memory, b.pointers ∘ a.pointers, b.listen ∘ a.listen, b.addresses ∘ a.addresses, b.reserved ∘ a.reserved,
    fun l c => b.capacity (a.params ▸ l) (a.capacity l c), b.params.trans a.params⟩

/-- An update that leaves the fields the invariants read alone, or shortens a FIFO. -/
theorem Keeps.of_fields {s t : State} (hmem : (t.mem, pointerKey t) = (s.mem, pointerKey s))
    (hmode : (t.ctl.mode, t.ctl.listen) = (s.ctl.mode, s.ctl.listen))
    (hmasks : (t.rep.isr, t.rep.ier, t.rep.noten) = (s.rep.isr, s.rep.ier, s.rep.noten))
    (haddr : (t.cfg.da, t.cfg.dav, t.cfg.bdt) = (s.cfg.da, s.cfg.dav, s.cfg.bdt)) (hparams : t.env.params = s.env.params)
    (hc : t.fifo.cfifo.length ≤ s.fifo.cfifo.length) (hs : t.fifo.sfifo.length ≤ s.fifo.sfifo.length)
    (ht : t.fifo.txfifo.length ≤ s.fifo.txfifo.length) (hr : t.fifo.rxfifo.length ≤ s.fifo.rxfifo.length)
    (hb : t.tgt.cccbuf.length ≤ max 8 s.tgt.cccbuf.length) : Keeps s t := by
  simp only [pointerKey, Prod.mk.injEq] at hmem hmode hmasks haddr
  refine ⟨?_, ?_, ?_, ?_, ?_, ?_, hparams⟩
  · unfold MemoryOk; rw [hmem.1, hparams]; exact id
  · obtain ⟨-, h1, h2, h3, h4, h5, h6⟩ := hmem
    unfold PointersOk; rw [h1, h2, h3, h4, h5, h6, hparams]; exact id
  · unfold ListenOk; rw [hmode.1, hmode.2, hmasks.2.2]; exact id
  · unfold AddressesOk; rw [haddr.1, haddr.2.1, haddr.2.2]; exact id
  · unfold ReservedOk; rw [hmasks.1, hmasks.2.1, hmasks.2.2]; exact id
  · unfold CapacityOk; rw [hparams]; intro _ h; omega

/-- An update of none of the fields the invariants read. -/
theorem Keeps.of_quiet {s t : State} (hmem : (t.mem, pointerKey t) = (s.mem, pointerKey s))
    (hmode : (t.ctl.mode, t.ctl.listen) = (s.ctl.mode, s.ctl.listen))
    (hmasks : (t.rep.isr, t.rep.ier, t.rep.noten) = (s.rep.isr, s.rep.ier, s.rep.noten))
    (haddr : (t.cfg.da, t.cfg.dav, t.cfg.bdt) = (s.cfg.da, s.cfg.dav, s.cfg.bdt)) (hparams : t.env.params = s.env.params)
    (hf : t.fifo = s.fifo) (hb : t.tgt.cccbuf = s.tgt.cccbuf) : Keeps s t :=
  Keeps.of_fields hmem hmode hmasks haddr hparams (by rw [hf]) (by rw [hf]) (by rw [hf]) (by rw [hf])
    (by rw [hb]; exact le_max_right _ _)

theorem drive_keeps (o : BusOut) (s : State) : Keeps s (drive o s) := Keeps.of_quiet rfl rfl rfl rfl rfl rfl rfl

/-- A PHY request keeps what its continuation keeps. -/
theorem phy_keeps {r : PhyReq} {k : PhyAnswer → State → State} {s : State}
    (h : ∀ a, Keeps (drive (.req r) s) (k a (drive (.req r) s))) : Keeps s (phy r k s) := by
  rcases phy_cases r k s with e | ⟨a, _, _, e⟩
  · rw [e]; exact Keeps.refl s
  · rw [e]; exact (drive_keeps _ _).trans (h a)

theorem flagBit_unreserved (f : Flag) : flagBit f &&& ~~~0x07FF03FF#32 = 0#32 := by cases f <;> decide

/-- Setting unreserved bits keeps reserved bits 0. -/
theorem or_unreserved {a b : Word} (ha : a &&& ~~~0x07FF03FF#32 = 0#32) (hb : b &&& ~~~0x07FF03FF#32 = 0#32) :
    (a ||| b) &&& ~~~0x07FF03FF#32 = 0#32 := by
  have h : (a ||| b) &&& ~~~0x07FF03FF#32 = (a &&& ~~~0x07FF03FF#32) ||| (b &&& ~~~0x07FF03FF#32) := by
    ext i; simp [Bool.and_or_distrib_right]
  rw [h, ha, hb]; rfl

theorem flag_keeps (f : Flag) (s : State) : Keeps s (flag f s) :=
  ⟨id, id, id, id, fun h => ⟨or_unreserved h.1 (flagBit_unreserved f), h.2.1, h.2.2⟩, fun _ => id, rfl⟩

theorem latch_keeps (e : ErrCode) (s : State) : Keeps s (latch e s) := Keeps.of_quiet rfl rfl rfl rfl rfl rfl rfl

theorem latchFlag_keeps (e : ErrCode) (s : State) : Keeps s (latchFlag e s) := (latch_keeps _ _).trans (flag_keeps _ _)

theorem detect_keeps (e : ErrCode) (s : State) : Keeps s (detect e s) :=
  Keeps.trans (t := { s with tst.perr := true }) (Keeps.of_quiet rfl rfl rfl rfl rfl rfl rfl) (latchFlag_keeps _ _)

theorem capture_keeps (f : Flag) (s : State) : Keeps s (capture f s) := by
  unfold capture
  split
  · exact Keeps.of_quiet rfl rfl rfl rfl rfl rfl rfl
  · exact Keeps.refl s

theorem notify_keeps (f : Flag) (s : State) : Keeps s (notify f s) := by
  unfold notify
  split
  · exact (capture_keeps _ _).trans (flag_keeps _ _)
  · exact Keeps.refl s

/-- LISTEN recomputed is right, whatever it was. -/
theorem listenOk_relisten (s : State) : ListenOk (relisten s) := by
  unfold ListenOk relisten listenOf
  simp only [Bool.and_eq_true, beq_iff_eq, bne_iff_ne, tgtIdMask]

theorem reject_keeps (c : Code) (s : State) : Keeps s (reject c s) := Keeps.of_quiet rfl rfl rfl rfl rfl rfl rfl

theorem presult_keeps (c : Code) (s : State) : Keeps s (presult c s) := Keeps.of_quiet rfl rfl rfl rfl rfl rfl rfl

theorem freshWork_keeps (s : State) : Keeps s (freshWork s) := Keeps.of_quiet rfl rfl rfl rfl rfl rfl rfl

theorem clearWork_keeps (s : State) : Keeps s (clearWork s) := Keeps.of_quiet rfl rfl rfl rfl rfl rfl rfl

theorem accept_keeps (op : Byte) (st : Strat) (w : Word) (s : State) : Keeps s (accept op st w s) :=
  Keeps.of_quiet rfl rfl rfl rfl rfl rfl rfl

theorem finish_keeps (c : Code) (aux : BitVec 16) (s : State) : Keeps s (finish c aux s) :=
  Keeps.of_quiet rfl rfl rfl rfl rfl rfl rfl

theorem setLife_keeps (l : Life) (s : State) : Keeps s (setLife l s) := Keeps.of_quiet rfl rfl rfl rfl rfl rfl rfl

theorem drainAll_keeps (s : State) : Keeps s (drainAll s) :=
  Keeps.of_fields rfl rfl rfl rfl rfl (Nat.zero_le _) (Nat.zero_le _) (Nat.zero_le _) (Nat.zero_le _) (le_max_right _ _)

/-- A class-L command is rejected, or does its acceptance actions. -/
theorem longCommand_cases (g : Option Code) (argsOk : Bool) (act : State → State) (s : State) :
    (∃ c, longCommand g argsOk act s = reject c s) ∨ (g = none ∧ argsOk = true ∧ longCommand g argsOk act s = act s) := by
  cases g with
  | some c => exact .inl ⟨c, rfl⟩
  | none =>
    cases argsOk with
    | false => exact .inl ⟨.invalidParam, rfl⟩
    | true => exact .inr ⟨rfl, rfl, rfl⟩

/-- What the gate of a class-L command says when it lets the command through (spec/41_controller.md R281). -/
theorem gate_none {m : Mode} {l : Life} {needsBus : Bool} {strats : List Strat} {st : Strat} {s : State}
    (h : gate m l needsBus strats st s = none) :
    s.ctl.mode = m ∧ s.ctl.cmdp = false ∧ s.ctl.life = l ∧ (needsBus = true → s.ctl.recov = false) ∧
      strats.contains st = true ∧ (st = .dma → s.env.params.dma = true) := by
  unfold gate at h
  repeat' split at h
  all_goals first | (cases h; done) | skip
  rename_i h1 h2 h3 h4 h5 h6
  simp only [ne_eq, Decidable.not_not, Bool.not_eq_true, Bool.and_eq_false_imp, Bool.not_eq_false,
    Bool.not_eq_true', beq_iff_eq] at h1 h2 h3 h4 h5 h6
  exact ⟨h1, h2, h3, h4, h5, fun hd => by simpa using h6 hd⟩

theorem closeFrame_keeps (stop : Bool) (s : State) : Keeps s (closeFrame stop s) := by
  unfold closeFrame
  split
  · cases stop <;> exact Keeps.of_quiet rfl rfl rfl rfl rfl rfl rfl
  · exact Keeps.refl s

theorem needRecovery_keeps (e : ErrCode) (s : State) : Keeps s (needRecovery e s) := by
  unfold needRecovery
  split
  · exact Keeps.of_quiet rfl rfl rfl rfl rfl rfl rfl
  · exact Keeps.refl s

theorem errorHalt_keeps (e : ErrCode) (s : State) : Keeps s (errorHalt e s) := by
  unfold errorHalt
  refine (closeFrame_keeps (decide (e ≠ .ce1)) s).trans ?_
  generalize closeFrame (decide (e ≠ .ce1)) s = u
  dsimp only
  split <;>
    exact Keeps.of_fields rfl rfl rfl rfl rfl (Nat.zero_le _) (Nat.zero_le _) (Nat.zero_le _) (Nat.zero_le _)
      (le_max_right _ _)

theorem flagRequest_keeps (s : State) : Keeps s (flagRequest s) := by
  unfold flagRequest
  split
  · exact flag_keeps _ _
  · exact Keeps.refl s

theorem errorEnd_keeps (s : State) : Keeps s (errorEnd s) := by
  unfold errorEnd
  repeat' split
  · exact Keeps.refl s
  · exact (flagRequest_keeps s).trans ((setLife_keeps _ _).trans (finish_keeps _ _ _))
  · exact Keeps.refl s

theorem raiseError_keeps (e : ErrCode) (s : State) : Keeps s (raiseError e s) :=
  (((latch_keeps _ _).trans (needRecovery_keeps _ _)).trans ((errorHalt_keeps _ _).trans (flag_keeps _ _))).trans
    (errorEnd_keeps _)

theorem commandHalt_keeps (s : State) : Keeps s (commandHalt s) := by
  unfold commandHalt
  refine (closeFrame_keeps true s).trans ?_
  generalize closeFrame true s = u
  dsimp only
  split <;>
    exact Keeps.of_fields rfl rfl rfl rfl rfl (Nat.zero_le _) (Nat.zero_le _) (Nat.zero_le _) (Nat.zero_le _)
      (le_max_right _ _)

theorem dmaAbortBytes_keeps (s : State) (n k : Nat) : Keeps s (dmaAbortBytes s n k) := by
  induction k with
  | zero => exact Keeps.refl s
  | succ k ih =>
    unfold dmaAbortBytes
    dsimp only
    split
    · exact ih.trans ⟨fun h => Memory.wf_write _ (lt_of_lt_of_eq (byteAt_lt s _ _) (by rw [ih.params])) h, id, id, id, id,
        fun _ => id, rfl⟩
    · exact ih

theorem dmaAbort_keeps (s : State) : Keeps s (dmaAbort s) := by
  unfold dmaAbort
  split
  · exact (dmaAbortBytes_keeps s _ _).trans (Keeps.of_quiet rfl rfl rfl rfl rfl rfl rfl)
  · exact Keeps.refl s

theorem abortConfirm_keeps (s : State) : Keeps s (abortConfirm s) := by
  unfold abortConfirm
  refine ((commandHalt_keeps s).trans (dmaAbort_keeps _)).trans ?_
  generalize dmaAbort (commandHalt s) = u
  have h : Keeps u { u with ctl.abortreq := false } := Keeps.of_quiet rfl rfl rfl rfl rfl rfl rfl
  exact (h.trans (setLife_keeps _ _)).trans ((flag_keeps _ _).trans (finish_keeps _ _ _))

theorem timeoutHalt_keeps (s : State) : Keeps s (timeoutHalt s) := by
  unfold timeoutHalt
  refine (commandHalt_keeps s).trans ?_
  generalize commandHalt s = u
  have h : Keeps u { u with daa.phase := .idle } := Keeps.of_quiet rfl rfl rfl rfl rfl rfl rfl
  exact (h.trans (flagRequest_keeps _)).trans ((setLife_keeps _ _).trans (finish_keeps _ _ _))

theorem memWrite_keeps {s t : State} {a : Nat} {bs : List Byte} (h : memWrite s a bs = some t) : Keeps s t := by
  rw [memWrite_some h]
  exact ⟨fun h => Memory.wf_store _ _ h, id, id, id, id, fun _ => id, rfl⟩

theorem memWrites_keeps (ws : List (Nat × List Byte)) (s : State) : Keeps s (memWrites s ws).1 := by
  rw [memWrites_eq]
  exact ⟨fun h => memWrites_wf ws s h, id, id, id, id, fun _ => id, rfl⟩

/-! ## The lifecycle -/

/-- The fields that `LifecycleOk` reads. -/
def lifecycleKey (s : State) : Mode × Life × Bool × Bool × Bool × Strat :=
  (s.ctl.mode, s.ctl.life, s.ctl.cmdp, s.ctl.abortreq, s.ctl.tmo, s.ctl.strat)

theorem lifecycleOk_of_key {s t : State} (h : lifecycleKey t = lifecycleKey s) (hs : LifecycleOk s) : LifecycleOk t := by
  unfold lifecycleKey at h
  simp only [Prod.mk.injEq] at h
  unfold LifecycleOk
  rw [h.1, h.2.1, h.2.2.1, h.2.2.2.1, h.2.2.2.2.1, h.2.2.2.2.2]
  exact hs

theorem notify_key (f : Flag) (s : State) : lifecycleKey (notify f s) = lifecycleKey s := by
  unfold notify capture
  repeat' split
  all_goals rfl

theorem needRecovery_key (e : ErrCode) (s : State) : lifecycleKey (needRecovery e s) = lifecycleKey s := by
  unfold needRecovery
  split <;> rfl

theorem flagRequest_key (s : State) : lifecycleKey (flagRequest s) = lifecycleKey s := by
  unfold flagRequest
  split <;> rfl

theorem closeFrame_key (stop : Bool) (s : State) : lifecycleKey (closeFrame stop s) = lifecycleKey s := by
  unfold closeFrame
  repeat' split
  all_goals rfl

theorem errorHalt_key (e : ErrCode) (s : State) : lifecycleKey (errorHalt e s) = lifecycleKey s := by
  unfold errorHalt
  rw [← closeFrame_key (decide (e ≠ .ce1)) s]
  generalize closeFrame (decide (e ≠ .ce1)) s = u
  dsimp only
  split <;> rfl

theorem commandHalt_key (s : State) : lifecycleKey (commandHalt s) = lifecycleKey s := by
  unfold commandHalt
  rw [← closeFrame_key true s]
  generalize closeFrame true s = u
  dsimp only
  split <;> rfl

theorem dmaAbortBytes_key (s : State) (n k : Nat) : lifecycleKey (dmaAbortBytes s n k) = lifecycleKey s := by
  induction k with
  | zero => rfl
  | succ k ih =>
    unfold dmaAbortBytes
    dsimp only
    split <;> exact ih

theorem dmaAbort_key (s : State) : lifecycleKey (dmaAbort s) = lifecycleKey s := by
  unfold dmaAbort
  split
  · exact dmaAbortBytes_key s _ _
  · rfl

/-- A command that ends in Idle, with no abort pending. -/
theorem finish_idle_lifecycle (c : Code) (aux : BitVec 16) {s t : State} (hm : s.ctl.mode ≠ .none)
    (ha : s.ctl.abortreq = false) (ht : lifecycleKey t = lifecycleKey s) :
    LifecycleOk (finish c aux (setLife .idle t)) := by
  unfold lifecycleKey at ht
  simp only [Prod.mk.injEq] at ht
  simp [LifecycleOk, ht, hm, ha]

/-- A pending command means an initialised block. -/
theorem LifecycleOk.mode_ne_none {s : State} (h : LifecycleOk s) (hc : s.ctl.cmdp = true) : s.ctl.mode ≠ .none :=
  fun hm => (h.2.1.1 hc).1 (h.1.1 hm)

theorem raiseError_lifecycle (e : ErrCode) {s : State} (h : LifecycleOk s) : LifecycleOk (raiseError e s) := by
  have hk : lifecycleKey (flag .err (errorHalt e (needRecovery e (latch e s)))) = lifecycleKey s := by
    show lifecycleKey (errorHalt _ _) = _
    rw [errorHalt_key, needRecovery_key]; rfl
  have hs := lifecycleOk_of_key hk h
  unfold raiseError errorEnd
  generalize flag .err (errorHalt e (needRecovery e (latch e s))) = u at hs
  repeat' split
  · exact hs
  · rename_i ha hc
    exact finish_idle_lifecycle _ _ (hs.mode_ne_none hc) (by simpa using ha) (flagRequest_key u)
  · exact hs

theorem abortConfirm_lifecycle {s : State} (hm : s.ctl.mode ≠ .none) : LifecycleOk (abortConfirm s) := by
  unfold abortConfirm
  have h : lifecycleKey (dmaAbort (commandHalt s)) = lifecycleKey s := by rw [dmaAbort_key, commandHalt_key]
  generalize dmaAbort (commandHalt s) = u at h
  unfold lifecycleKey at h
  simp only [Prod.mk.injEq] at h
  simp [LifecycleOk, h, hm]

theorem timeoutHalt_lifecycle {s : State} (hm : s.ctl.mode ≠ .none) (ha : s.ctl.abortreq = false) :
    LifecycleOk (timeoutHalt s) := by
  unfold timeoutHalt
  have h : lifecycleKey (flagRequest { commandHalt s with daa.phase := .idle }) = lifecycleKey s :=
    (flagRequest_key _).trans (commandHalt_key s)
  exact finish_idle_lifecycle _ _ hm ha h

end Sys2Proof.Machine
end

