-- ==== Sys2Proof/Laws/PerInstr.lean ====
section
/-! SUPPORT. Facts about every instruction as syntax, one lemma for each constructor. -/

namespace Sys2Proof.Laws.Length

/-- How many bytes the block stores an instruction in: a CCC code is one byte, a command and a control word are four
(spec/30_encoding.md R170, R180, R215). -/
def Statement (i : Instr) : Prop := (encode i).length = if i.space = .ccc then 1 else 4

theorem ctxReset (strat : Strat) (sub : Byte) : Statement (.ctxReset strat sub) := rfl

theorem ctxBind (strat : Strat) (sub : Byte) : Statement (.ctxBind strat sub) := rfl

theorem buildPrivate (strat : Strat) (sub : Byte) : Statement (.buildPrivate strat sub) := rfl

theorem buildCcc (strat : Strat) (sub : Byte) : Statement (.buildCcc strat sub) := rfl

theorem decodePayload (strat : Strat) (sub : Byte) : Statement (.decodePayload strat sub) := rfl

theorem init (strat : Strat) (sub : Byte) : Statement (.init strat sub) := rfl

theorem deinit (strat : Strat) (sub : Byte) : Statement (.deinit strat sub) := rfl

theorem start (strat : Strat) (sub : Byte) : Statement (.start strat sub) := rfl

theorem abort (strat : Strat) (sub : Byte) : Statement (.abort strat sub) := rfl

theorem daa (strat : Strat) (sub : Byte) : Statement (.daa strat sub) := rfl

theorem setdasa (strat : Strat) (sub : Byte) : Statement (.setdasa strat sub) := rfl

theorem probe (strat : Strat) (sub : Byte) : Statement (.probe strat sub) := rfl

theorem busRecover (strat : Strat) (sub : Byte) : Statement (.busRecover strat sub) := rfl

theorem tgtTx (strat : Strat) (sub : Byte) : Statement (.tgtTx strat sub) := rfl

theorem tgtRx (strat : Strat) (sub : Byte) : Statement (.tgtRx strat sub) := rfl

theorem hjReq (strat : Strat) (sub : Byte) : Statement (.hjReq strat sub) := rfl

theorem crReq (strat : Strat) (sub : Byte) : Statement (.crReq strat sub) := rfl

theorem ibiReq (strat : Strat) (sub : Byte) : Statement (.ibiReq strat sub) := rfl

theorem notifyActivate (strat : Strat) (sub : Byte) : Statement (.notifyActivate strat sub) := rfl

theorem notifyDeactivate (strat : Strat) (sub : Byte) : Statement (.notifyDeactivate strat sub) := rfl

theorem getCccInfo (strat : Strat) (sub : Byte) : Statement (.getCccInfo strat sub) := rfl

theorem cwCcc (mend arb : Bool) (code : Byte) (dcnt : BitVec 16) : Statement (.cwCcc mend arb code dcnt) := rfl

theorem cwPriv (mend arb : Bool) (addr : Addr7) (rnw : Bool) (dcnt : BitVec 16) : Statement (.cwPriv mend arb addr rnw dcnt) := rfl

theorem cwI2c (mend arb : Bool) (addr : Addr7) (rnw : Bool) (dcnt : BitVec 16) : Statement (.cwI2c mend arb addr rnw dcnt) := rfl

theorem cwDirect (mend arb : Bool) (addr : Addr7) (rnw : Bool) (dcnt : BitVec 16) : Statement (.cwDirect mend arb addr rnw dcnt) := rfl

theorem enecB : Statement .enecB := rfl

theorem disecB : Statement .disecB := rfl

theorem entas0B : Statement .entas0B := rfl

theorem entas1B : Statement .entas1B := rfl

theorem entas2B : Statement .entas2B := rfl

theorem entas3B : Statement .entas3B := rfl

theorem rstdaaB : Statement .rstdaaB := rfl

theorem entdaa : Statement .entdaa := rfl

theorem deftgts : Statement .deftgts := rfl

theorem setmwlB : Statement .setmwlB := rfl

theorem setmrlB : Statement .setmrlB := rfl

theorem rstactB : Statement .rstactB := rfl

theorem defgrpa : Statement .defgrpa := rfl

theorem enecD : Statement .enecD := rfl

theorem disecD : Statement .disecD := rfl

theorem entas0D : Statement .entas0D := rfl

theorem entas1D : Statement .entas1D := rfl

theorem entas2D : Statement .entas2D := rfl

theorem entas3D : Statement .entas3D := rfl

theorem rstdaaD : Statement .rstdaaD := rfl

theorem setdasaCcc : Statement .setdasaCcc := rfl

theorem setnewda : Statement .setnewda := rfl

theorem setmwlD : Statement .setmwlD := rfl

theorem setmrlD : Statement .setmrlD := rfl

theorem getmwl : Statement .getmwl := rfl

theorem getmrl : Statement .getmrl := rfl

theorem getpid : Statement .getpid := rfl

theorem getbcr : Statement .getbcr := rfl

theorem getdcr : Statement .getdcr := rfl

theorem getstatus : Statement .getstatus := rfl

theorem getacccr : Statement .getacccr := rfl

theorem rstactD : Statement .rstactD := rfl

theorem enthdr (hdr : BitVec 3) : Statement (.enthdr hdr) := rfl

end Sys2Proof.Laws.Length
end

