-- ==== Sys2Proof/Tests/Slice0.lean ====
section
/-! SUPPORT. Tests: the well-formedness checks refuse an ill-formed term each, every constructor is decoded from a word written
out from the spec's encoding, one or two single steps per instruction with results taken from the rules' worked examples and
the vectors of spec/95_test_vectors.md, and a witness for the hypotheses of every statement of the obligations. -/

namespace Sys2Proof.Tests

open Sys2Proof Sys2Proof.Machine

/-! ## Well-formedness -/

theorem test_wf_ctxBind_selector : (Instr.ctxBind .poll 3).wellFormed = false := by decide
theorem test_wf_buildPrivate_class : (Instr.buildPrivate .poll 0x12).wellFormed = false := by decide
theorem test_wf_buildPrivate_mode : (Instr.buildPrivate .poll 0x08).wellFormed = false := by decide
theorem test_wf_buildCcc_class : (Instr.buildCcc .poll 0x10).wellFormed = false := by decide
theorem test_wf_buildCcc_mode : (Instr.buildCcc .poll 0x22).wellFormed = false := by decide
theorem test_wf_init_mode : (Instr.init .poll 3).wellFormed = false := by decide
theorem test_wf_init_strategy : (Instr.init .irq 1).wellFormed = false := by decide
theorem test_wf_daa_variant : (Instr.daa .poll 2).wellFormed = false := by decide
theorem test_wf_daa_strategy : (Instr.daa .dma 0).wellFormed = false := by decide
theorem test_wf_setdasa_strategy : (Instr.setdasa .dma 0).wellFormed = false := by decide
theorem test_wf_probe_variant : (Instr.probe .poll 2).wellFormed = false := by decide
theorem test_wf_probe_strategy : (Instr.probe .irq 0).wellFormed = false := by decide
theorem test_wf_busRecover_strategy : (Instr.busRecover .irq 0).wellFormed = false := by decide
theorem test_wf_hjReq_strategy : (Instr.hjReq .dma 0).wellFormed = false := by decide
theorem test_wf_crReq_strategy : (Instr.crReq .dma 0).wellFormed = false := by decide
theorem test_wf_ibiReq_strategy : (Instr.ibiReq .dma 0).wellFormed = false := by decide
theorem test_wf_cwCcc_arb : (Instr.cwCcc true true 0x06 0).wellFormed = false := by decide
theorem test_wf_cwCcc_mend : (Instr.cwCcc true false 0x80 0).wellFormed = false := by decide
theorem test_wf_cwDirect_arb : (Instr.cwDirect true true 0x30 false 0).wellFormed = false := by decide
theorem test_wf_good : (Instr.buildCcc .poll 0x12).wellFormed = true ∧ (Instr.cwDirect true false 0x30 true 6).wellFormed = true := by
  decide

/-! ## Decoding (spec/30_encoding.md R170, R171, R180, R215): words written out field by field -/

/-- R170: bits 31:24 reserved, 23:16 SUB, 15:10 reserved, 9:8 STRAT, 7:0 OP. -/
theorem test_decode_init : decodeTableWord 32 0b00000000_00000001_000000_00_00010000 = some (.init .poll 1) := by decide
theorem test_decode_daa : decodeTableWord 32 0b00000000_00000001_000000_01_00100010 = some (.daa .irq 1) := by decide
theorem test_decode_tgtRx : decodeTableWord 32 0b00000000_00000000_000000_10_00110001 = some (.tgtRx .dma 0) := by decide

/-- R180: MEND, MTYPE, ARB, two reserved bits, the address or code, RNW, DCNT. -/
theorem test_decode_cwPriv :
    decodeTableWord 32 0b1_0010_0_00_0001000_0_0000000000000100 = some (.cwPriv true false 0x08 false 4) := by decide
theorem test_decode_cwI2c :
    decodeTableWord 32 0b0_0011_1_00_1010000_1_1000000000000001 = some (.cwI2c false true 0x50 true 0x8001) := by decide
theorem test_decode_cwDirect :
    decodeTableWord 32 0b1_0100_0_00_0110000_1_0000000000000110 = some (.cwDirect true false 0x30 true 6) := by decide
theorem test_decode_cwCcc :
    decodeTableWord 32 0b0_0001_0_00_10001101_0000000000000000 = some (.cwCcc false false 0x8D 0) := by decide

theorem test_decode_commands :
    [0x01, 0x00FF0302, 0x00100003, 0x00120004, 0x05, 0x00010010, 0x11, 0x0120, 0x21, 0x0122, 0x0123, 0x00010024, 0x25].map
        (decodeTableWord 32) =
      [some (.ctxReset .poll 0), none, some (.buildPrivate .poll 0x10), some (.buildCcc .poll 0x12),
        some (.decodePayload .poll 0), some (.init .poll 1), some (.deinit .poll 0), some (.start .irq 0),
        some (.abort .poll 0), some (.daa .irq 0), some (.setdasa .irq 0), some (.probe .poll 1),
        some (.busRecover .poll 0)] := by decide
theorem test_decode_commands_more :
    [0x00020002, 0x0230, 0x0231, 0x0132, 0x0133, 0x0134, 0x40, 0x41, 0x42].map (decodeTableWord 32) =
      [some (.ctxBind .poll 2), some (.tgtTx .dma 0), some (.tgtRx .dma 0), some (.hjReq .irq 0), some (.crReq .irq 0),
        some (.ibiReq .irq 0), some (.notifyActivate .poll 0), some (.notifyDeactivate .poll 0),
        some (.getCccInfo .poll 0)] := by decide
theorem test_decode_broadcast_codes :
    [0x00, 0x01, 0x02, 0x03, 0x04, 0x05, 0x06, 0x07, 0x08, 0x09, 0x0A, 0x2A, 0x2B, 0x20, 0x27].map (decodeTableWord 8) =
      [some .enecB, some .disecB, some .entas0B, some .entas1B, some .entas2B, some .entas3B, some .rstdaaB, some .entdaa,
        some .deftgts, some .setmwlB, some .setmrlB, some .rstactB, some .defgrpa, some (.enthdr 0), some (.enthdr 7)] := by
  decide
theorem test_decode_direct_codes :
    [0x80, 0x81, 0x82, 0x83, 0x84, 0x85, 0x86, 0x87, 0x88, 0x89, 0x8A, 0x8B, 0x8C, 0x8D, 0x8E, 0x8F, 0x90, 0x91, 0x9A].map
        (decodeTableWord 8) =
      [some .enecD, some .disecD, some .entas0D, some .entas1D, some .entas2D, some .entas3D, some .rstdaaD,
        some .setdasaCcc, some .setnewda, some .setmwlD, some .setmrlD, some .getmwl, some .getmrl, some .getpid,
        some .getbcr, some .getdcr, some .getstatus, some .getacccr, some .rstactD] := by decide
theorem test_decode_rejects_by_name :
    decode .command (bytes32 0x00000410) = .error .reservedField ∧ decode .command (bytes32 0x00000310) = .error .reservedStrat ∧
      decode .command (bytes32 0x00000006) = .error .reservedOp ∧ decode .control (bytes32 0x11000000) = .error .reservedField ∧
      decode .control (bytes32 0x28000000) = .error .reservedMtype ∧ decode .control [0, 0, 0] = .error .truncated ∧
      decode .ccc [0x0B] = .error .unsupportedCcc ∧ decode .ccc [0x0D] = .error .undefinedCcc := by decide

/-! ## Small states -/

/-- What a field of the next state holds. -/
def after {α : Type} (o : Host.Outcome State Fault Refusal) (f : State → α) : Option α :=
  match o with
  | .next s => some (f s)
  | .fault _ => none
  | .refused _ => none

/-- An idle controller. -/
def ctrl : State := { State.reset with ctl.mode := .controller, ctl.life := .idle }

/-- An idle target with the dynamic address 0x30 and characteristics. -/
def tgt : State :=
  { State.reset with
    ctl.mode := .target, ctl.life := .idle, cfg.da := 0x30, cfg.dav := true, cfg.bcr := 0x46, cfg.dcr := 0xC6,
    cfg.pid1 := 0x1234, cfg.pid0 := 0x56789ABC, cfg.mwl := 0x0100, cfg.mrl := 0x0040 }

/-- A controller that executes a START, in a phase, before a PHY request, with the PHY's answer. -/
def word (p : SeqPhase) (m : Micro) (a : PhyAnswer) : State :=
  { ctrl with
    ctl.life := .tx, ctl.cmdp := true, ctl.pendop := 0x20, seq.phase := p, seq.frame := true, work.micro := m,
    env.cue := .answer a }

/-- A target in a phase, with an event. -/
def hears (p : TgtPhase) (e : PhyEvent) (buf : List Byte) : State :=
  { tgt with tgt.phase := p, tgt.cccbuf := buf, env.cue := .event e }

/-- A target that sends a response byte. -/
def sends (buf : List Byte) (k : Byte) : State :=
  { tgt with tgt.phase := .directR, tgt.cccbuf := buf, tgt.rspk := k, env.cue := .answer .ok }

/-- The context, control buffer, tx buffer and descriptor of program P1 (spec/95_test_vectors.md), not built. -/
def p1Mem : Memory :=
  [(0x20000001, 0x01), (0x20000003, 0x20), (0x20000004, 0x08), (0x20000009, 0x02), (0x2000000B, 0x20), (0x2000000C, 0x04),
    (0x20000400, 0x08), (0x20000404, 0x04)]

/-- The same, built (P1, step 6). -/
def p1Built : Memory :=
  [(0x20000001, 0x01), (0x20000003, 0x20), (0x20000004, 0x08), (0x20000009, 0x02), (0x2000000B, 0x20), (0x2000000C, 0x04),
    (0x20000018, 0x01), (0x2000001C, 0x04), (0x20000024, 0x10), (0x20000025, 0x01), (0x20000026, 0x01), (0x20000028, 0x01)]

/-- A controller with P1's memory and the arguments of its build. -/
def p1 : State :=
  { ctrl with mem := p1Mem, arg := { arg0 := 0x20000000, arg1 := 0x20000400, arg2 := 1, arg3 := 0 } }

/-! ## One step of every instruction -/

/-- R240: a byte of the context becomes 0. -/
theorem test_ctxReset : after (exec (.ctxReset .poll 0) p1) (fun s => (Memory.read s.mem 0x20000001, s.rep.pcode)) = some (0, 0) := by
  decide
/-- R240: a misaligned context. -/
theorem test_ctxReset_misaligned :
    after (exec (.ctxReset .poll 0) { p1 with arg.arg0 := 0x20000002 }) (fun s => (s.mem, s.rep.pcode)) = some (p1Mem, 3) := by
  decide
/-- R241, worked example. -/
theorem test_ctxBind :
    after (exec (.ctxBind .poll 0) { p1 with mem := [], arg.arg1 := 0x20000100, arg.arg2 := 8 }) (fun s => (s.mem, s.rep.pcode)) =
      some ([(0x20000001, 0x01), (0x20000003, 0x20), (0x20000004, 0x08)], 0) := by decide
/-- R244, worked example: 0x90100004 at 0x20000100. -/
theorem test_buildPrivate :
    after (exec (.buildPrivate .poll 0x10) p1) (fun s => (wordAt s s.mem 0x20000100, Memory.read s.mem 0x20000025, s.rep.pcode)) =
      some (0x90100004, 1, 0) := by decide
/-- R246, worked example: 0x088D0000, 0xA0610006 (GETPID of 0x30); rx buffer bound. -/
theorem test_buildCcc :
    after
        (exec (.buildCcc .poll 0x12)
          { p1 with
            mem :=
              [(0x20000001, 0x01), (0x20000003, 0x20), (0x20000004, 0x08), (0x20000011, 0x03), (0x20000013, 0x20),
                (0x20000014, 0x06), (0x20000400, 0x30), (0x20000401, 0x8D), (0x20000402, 0x01), (0x20000404, 0x06)] })
        (fun s => (wordAt s s.mem 0x20000100, wordAt s s.mem 0x20000104, s.rep.pcode)) = some (0x088D0000, 0xA0610006, 0) := by
  decide
/-- R395, vector A1 of spec/95_test_vectors.md: the payload 0x04A212345000C627. -/
theorem test_decodePayload :
    after (exec (.decodePayload .poll 0) { ctrl with arg.arg0 := 0x5000C627, arg.arg1 := 0x04A21234 })
        (fun s => (s.dec.dec0, s.dec.dec1, s.dec.dec2, s.dec.dec3)) = some (0x005027C6, 0x12340251, 0, 0xC6) := by decide
/-- R300, worked example. -/
theorem test_init :
    after (exec (.init .poll 1) State.reset) (fun s => (s.ctl.mode, s.ctl.life, s.ctl.cmdp)) = some (.controller, .init, true) := by
  decide
/-- R301: DEINIT is accepted while a target request is handled with no command pending. -/
theorem test_deinit_in_request :
    after (exec (.deinit .poll 0) { ctrl with work.request := .ack 0x30 true, seq.frame := true })
        (fun s => (s.ctl.life, s.rep.pcode, s.env.bus)) = some (.reset, 0, []) := by decide
/-- R301, worked example. -/
theorem test_deinit :
    after (exec (.deinit .poll 0) ctrl) (fun s => (s.ctl.mode, s.ctl.life, s.rep.pcode)) = some (.none, .reset, 0) := by decide
/-- R282, P1 step 7. -/
theorem test_start :
    after (exec (.start .poll 0) { p1 with mem := p1Built, arg.arg1 := 1 })
        (fun s => (statusWord s, s.cnt.ctrlrem, s.cnt.txrem, s.cnt.rxrem)) = some (0x00001111, 1, 4, 0) := by decide
/-- R282: a context that is not built. -/
theorem test_start_not_built : after (exec (.start .poll 0) p1) resultWord = some 0x00000003 := by decide
/-- R145: with RX_BUF = 0 no rx buffer is bound, whatever RX_CAP says. -/
theorem test_start_unbound_rx :
    let cap := Memory.write p1Built (p1.arg.arg0.toNat + 0x14) 4
    let s := { p1 with mem := cap }
    after (exec (.start .dma 0) s) (fun s => s.work.rxCap) = some 0 ∧
      after (exec (.start .dma 0) { s with mem := Memory.write cap (p1.arg.arg0.toNat + 0x11) 3 })
          (fun s => (s.work.rxBase, s.work.rxCap)) = some (0x300, 4) := by decide
/-- R292, worked example; R292: refused in DAA. -/
theorem test_abort : after (exec (.abort .poll 0) (word .fetch .start .ok)) statusWord = some 0x00005120 := by decide
theorem test_abort_daa :
    after (exec (.abort .poll 0) { word .fetch .start .ok with ctl.life := .daa }) (fun s => (s.ctl.life, s.rep.pcode)) =
      some (.daa, 2) := by decide
/-- R381: DAA is accepted, the allocator starts at DAABASE. -/
theorem test_daa :
    after (exec (.daa .poll 1) ctrl) (fun s => (statusWord s, s.daa.phase, s.daa.next)) = some (0x00001114, .entdaa, 0x08) := by decide
/-- R294: the effective address 0 means the static one. -/
theorem test_setdasa :
    after (exec (.setdasa .poll 0) { ctrl with arg.arg0 := 0x08 }) (fun s => (s.ctl.life, s.work.opAddr, s.work.opData)) =
      some (.tx, 0x08, 0x08) := by decide
/-- R294: an invalid new address. -/
theorem test_setdasa_invalid :
    after (exec (.setdasa .poll 0) { ctrl with arg.arg0 := 0x08, arg.arg1 := 0x3E }) (fun s => (s.rep.code, s.rep.reserr)) =
      some (3, 0x40000) := by decide
/-- R295: no trials asked for. -/
theorem test_probe : after (exec (.probe .poll 0) { ctrl with arg.arg0 := 0x08 }) resultWord = some 0x00000003 := by decide
theorem test_probe_accepted :
    after (exec (.probe .poll 0) { ctrl with arg.arg0 := 0x08, arg.arg1 := 2 }) (fun s => (s.ctl.life, s.ctl.pendop)) =
      some (.tx, 0x24) := by decide
/-- R296: accepted although RECOV = 1. -/
theorem test_busRecover :
    after (exec (.busRecover .poll 0) { ctrl with ctl.recov := true }) (fun s => (s.ctl.life, s.ctl.recov)) = some (.tx, true) := by
  decide
/-- R420. -/
theorem test_tgtTx :
    after (exec (.tgtTx .poll 0) { tgt with arg.arg0 := 0x20000200, arg.arg1 := 4 })
        (fun s => (s.ctl.life, s.cnt.txptr, s.cnt.txrem)) = some (.tx, 0x20000200, 4) := by decide
/-- R422, P4: 0x00001212. -/
theorem test_tgtRx :
    after (exec (.tgtRx .poll 0) { tgt with arg.arg0 := 0x20000300, arg.arg1 := 4 }) (fun s => (statusWord s, s.cnt.rxrem)) =
      some (0x00001212, 4) := by decide
/-- R425, P6: 0x00001215; R425: not with an address held. -/
theorem test_hjReq : after (exec (.hjReq .poll 0) { tgt with cfg.dav := false }) statusWord = some 0x00001215 := by decide
theorem test_hjReq_assigned : after (exec (.hjReq .poll 0) tgt) resultWord = some 0x00000003 := by decide
/-- R430: BCR[7:6] must be 0b01. -/
theorem test_crReq : after (exec (.crReq .poll 0) tgt) (fun s => s.ctl.life) = some .tgtreq := by decide
theorem test_crReq_incapable : after (exec (.crReq .poll 0) { tgt with cfg.bcr := 0xC6 }) (fun s => s.rep.code) = some 3 := by decide
/-- R436. -/
theorem test_ibiReq :
    after (exec (.ibiReq .poll 0) { tgt with arg.arg0 := 0x20000200, arg.arg1 := 3 }) (fun s => (s.ctl.life, s.tgt.tgtlen, s.cnt.txrem)) =
      some (.tgtreq, 3, 3) := by decide
/-- R540, P3 step 3: STATUS 0x00000602. -/
theorem test_notifyActivate :
    after (exec (.notifyActivate .poll 0) { tgt with arg.arg0 := 0x00280000 }) (fun s => (statusWord s, s.rep.noten)) =
      some (0x00000602, 0x00280000) := by decide
/-- R541. -/
theorem test_notifyDeactivate :
    after (exec (.notifyDeactivate .poll 0) { tgt with arg.arg0 := 0x00280000, rep.noten := 0x00280000, ctl.listen := true })
        (fun s => (s.ctl.listen, s.rep.noten)) = some (false, 0) := by decide
/-- R546, P3 step 13: slot 21 of a target at 0x30. -/
theorem test_getCccInfo :
    after
        (exec (.getCccInfo .poll 0)
          { tgt with
            arg.arg0 := 21
            snap.slots := tgt.snap.slots.set 5 { snapshotOf { tgt with cfg.mwl := 0x40, cfg.mrl := 0 } with pend := true } })
        (fun s => (s.snap.info0, s.snap.info1, s.snap.slots[5].pend, s.rep.pcode)) = some (0x001C00B0, 0x40, false, 0) := by decide
/-- R287: the code goes out and is kept. -/
theorem test_cwCcc :
    after (exec (.cwCcc false false 0x89 0) (word .addr .code .ok)) (fun s => (s.seq.phase, s.seq.ccchdr, s.seq.ccclast)) =
      some (.fetch, true, 0x89) := by decide
/-- R291: MEND with a direct code is illegal. -/
theorem test_cwCcc_illegal :
    after (exec (.cwCcc true false 0x80 0) (word .fetch .start .ok)) (fun s => (s.rep.err, s.rep.code)) = some (0x1000, 4) := by decide
/-- R302: one byte written; a NACKed address. -/
theorem test_cwPriv :
    after (exec (.cwPriv true false 0x08 false 1) { word .data .data .ok with fifo.txfifo := [0x11] })
        (fun s => (s.seq.phase, s.cnt.datacnt, s.env.bus)) = some (.fin, 1, [.req (.wbyte 0x11 false)]) := by decide
theorem test_cwPriv_nack :
    after (exec (.cwPriv true false 0x08 false 4) (word .addr .addr .nack)) (fun s => (s.rep.err, s.rep.code, s.env.bus)) =
      some (0x4000, 4, [.req .stop, .req (.addr 0x08 false)]) := by decide
/-- R303: a NACKed byte is not counted. -/
theorem test_cwI2c :
    after (exec (.cwI2c true false 0x50 false 2) { word .data .data .nack with fifo.txfifo := [0xAA] })
        (fun s => (s.rep.err, s.cnt.datacnt)) = some (0x8000, 0) := by decide
/-- R289: a target that ends its read early; CURDONE is the count of the word's own bytes (R77). -/
theorem test_cwDirect :
    after (exec (.cwDirect true false 0x30 true 4) { word .data .data (.byte 0x40 false) with cnt.rxrem := 4 })
        (fun s => (s.seq.phase, s.seq.early, s.cnt.rxrem, s.fifo.rxfifo, s.seq.curdone)) = some (.fin, true, 1, [0x40], 1) := by
  decide
/-- R290: the end of the last message. -/
theorem test_cwDirect_end :
    after (exec (.cwDirect true false 0x30 true 4) (word .fin .start .ok)) (fun s => (resultWord s, s.rep.isr)) =
      some (0x00010000, 1) := by decide
/-- R464: bit 0 enables IBI. -/
theorem test_enecB :
    after (exec .enecB { hears .cccData .stop [0x01] with tst.enint := false }) (fun s => (s.tst.enint, s.tgt.ccccur)) =
      some (true, 0) := by decide
theorem test_enecD : after (exec .enecD { hears .directW .rstart [0x08] with tst.enhj := false }) (fun s => s.tst.enhj) = some true := by
  decide
/-- R465, example: e = 0x08. -/
theorem test_disecB : after (exec .disecB (hears .cccData .stop [0x08])) (fun s => (s.tst.enint, s.tst.enhj)) = some (true, false) := by
  decide
theorem test_disecD : after (exec .disecD (hears .directW .stop [])) (fun s => (s.tst.enint, s.rep.err)) = some (true, 0x200) := by
  decide
/-- R466. -/
theorem test_entas0B : after (exec .entas0B { hears .cccData .stop [] with tst.act := 3 }) (fun s => s.tst.act) = some 0 := by decide
theorem test_entas1B : after (exec .entas1B (hears .cccData .stop [])) (fun s => s.tst.act) = some 1 := by decide
theorem test_entas2B : after (exec .entas2B (hears .cccData .stop [])) (fun s => s.tst.act) = some 2 := by decide
theorem test_entas3B : after (exec .entas3B (hears .cccData .stop [])) (fun s => s.tst.act) = some 3 := by decide
theorem test_entas0D : after (exec .entas0D { hears .directW .stop [] with tst.act := 3 }) (fun s => s.tst.act) = some 0 := by decide
theorem test_entas1D : after (exec .entas1D (hears .directW .stop [])) (fun s => s.tst.act) = some 1 := by decide
theorem test_entas2D : after (exec .entas2D (hears .directW .stop [])) (fun s => s.tst.act) = some 2 := by decide
theorem test_entas3D : after (exec .entas3D (hears .directW .stop [])) (fun s => s.tst.act) = some 3 := by decide
/-- R467. -/
theorem test_rstdaaB : after (exec .rstdaaB (hears .cccData .stop [])) (fun s => ownaddrWord s) = some 0 := by decide
theorem test_rstdaaD : after (exec .rstdaaD (hears .directW .rstart [])) (fun s => ownaddrWord s) = some 0 := by decide
/-- R468: the address is taken; a target with an address ignores the rest. -/
theorem test_entdaa :
    after (exec .entdaa { hears .daa (.da 0x09) [] with cfg.dav := false }) (fun s => (ownaddrWord s, s.tgt.phase)) =
      some (0x89, .ignore) := by decide
theorem test_entdaa_assigned : after (exec .entdaa (hears .ccc (.byte 0x07) [])) (fun s => (s.tgt.phase, s.tgt.ignstop)) =
    some (.ignore, true) := by decide
/-- R478: a byte of the list goes to the notification buffer. -/
theorem test_deftgts :
    after (exec .deftgts { hears .cccData (.byte 0x55) [] with rep.noten := 0x04000000, snap.nbufptr := 0x3000, snap.nbuflen := 2 })
        (fun s => (s.mem, s.snap.nbufptr, s.snap.nbuflen)) = some ([(0x3000, 0x55)], 0x3001, 1) := by decide
/-- R478: no room left. -/
theorem test_defgrpa :
    after (exec .defgrpa { hears .cccData (.byte 0x55) [] with rep.noten := 0x04000000 }) (fun s => s.rep.err) = some 0x2000 := by decide
/-- R470, example: SETMWL 01 00. -/
theorem test_setmwlB : after (exec .setmwlB (hears .cccData .stop [0x01, 0x00])) (fun s => s.cfg.mwl) = some 256 := by decide
theorem test_setmwlD : after (exec .setmwlD (hears .directW .rstart [0x00, 0x40])) (fun s => s.cfg.mwl) = some 0x40 := by decide
/-- R471: two or three bytes. -/
theorem test_setmrlB : after (exec .setmrlB (hears .cccData .stop [0x00, 0x20, 0x04])) (fun s => s.cfg.mrl) = some 0x20 := by decide
theorem test_setmrlD : after (exec .setmrlD (hears .directW .stop [0x12])) (fun s => (s.cfg.mrl, s.rep.err)) = some (0x40, 0x200) := by
  decide
/-- R473. -/
theorem test_rstactB : after (exec .rstactB (hears .cccData .stop [0x02])) (fun s => s.tst.rstact) = some 2 := by decide
theorem test_rstactD :
    after (exec .rstactD { hears .directW .stop [] with tgt.defv := true, tgt.defbyte := 1 }) (fun s => s.tst.rstact) = some 1 := by
  decide
/-- R469: only while the target has no dynamic address. -/
theorem test_setdasaCcc :
    after (exec .setdasaCcc { hears .directW .stop [0x12] with cfg.dav := false }) (fun s => ownaddrWord s) = some 0x89 := by decide
theorem test_setdasaCcc_held :
    after (exec .setdasaCcc (hears .addr (.addr 0x30 false) [])) (fun s => s.env.bus) = some [.answer false] := by decide
/-- R472: 0x12 carries 0x09; 0xFC carries 0x7E, no valid address. -/
theorem test_setnewda : after (exec .setnewda (hears .directW .stop [0x12])) (fun s => ownaddrWord s) = some 0x89 := by decide
theorem test_setnewda_invalid :
    after (exec .setnewda (hears .directW .stop [0xFC])) (fun s => (ownaddrWord s, s.rep.err)) = some (0xB0, 0x40000) := by decide
/-- R480–R486: the responses. -/
theorem test_getmwl : after (exec .getmwl (hears .addr (.addr 0x30 true) [])) (fun s => s.tgt.cccbuf) = some [0x01, 0x00] := by decide
theorem test_getmrl : after (exec .getmrl (hears .addr (.addr 0x30 true) [])) (fun s => s.tgt.cccbuf) = some [0x00, 0x40, 4] := by decide
theorem test_getpid :
    after (exec .getpid (hears .addr (.addr 0x30 true) [])) (fun s => s.tgt.cccbuf) = some [0x12, 0x34, 0x56, 0x78, 0x9A, 0xBC] := by
  decide
theorem test_getbcr : after (exec .getbcr (hears .addr (.addr 0x30 true) [])) (fun s => s.tgt.cccbuf) = some [0x46] := by decide
theorem test_getdcr : after (exec .getdcr (hears .addr (.addr 0x30 true) [])) (fun s => s.tgt.cccbuf) = some [0xC6] := by decide
/-- R485, example: AS = 2, PERR = 1. -/
theorem test_getstatus :
    after (exec .getstatus { hears .addr (.addr 0x30 true) [] with tst.act := 2, tst.perr := true }) (fun s => s.tgt.cccbuf) =
      some [0x00, 0xA0] := by decide
/-- R485, R479: PERR is cleared once the response is sent. -/
theorem test_getstatus_sent :
    after (exec .getstatus { sends [0, 0x20] 1 with tst.perr := true }) (fun s => (s.tst.perr, s.tgt.phase)) = some (false, .ignore) := by
  decide
/-- R486: 0x30 has two 1 bits, so the parity bit is 1; once it is sent, HANDOFF. -/
theorem test_getacccr : after (exec .getacccr (hears .addr (.addr 0x30 true) [])) (fun s => s.tgt.cccbuf) = some [0x61] := by decide
theorem test_getacccr_sent : after (exec .getacccr (sends [0x61] 0)) (fun s => s.tgt.handoff) = some true := by decide
/-- R476. -/
theorem test_enthdr :
    after (exec (.enthdr 5) (hears .ccc (.byte 0x25) [])) (fun s => (s.tgt.phase, s.tgt.ignstop)) = some (.ignore, true) := by decide

/-! ## A step fetches and runs a table word from reset -/

theorem test_fetch_command : after (step (State.reset.withFetchWord 32 0x00010010)) (fun s => s.ctl.life) = some .init := by decide
theorem test_fetch_control :
    after (step (State.reset.withFetchWord 32 0x90100004)) (fun s => (s.seq.phase, s.seq.cur)) = some (.addr, 0x90100004) := by decide
/-- U13: after an undefined direct code a repeated START and the broadcast address are ignored. -/
theorem test_undefined_direct :
    after (targetEvent (.byte 0x9E) (hears .ccc (.byte 0x9E) []))
        (fun s => (s.tgt.phase, s.tgt.ignstop, after (targetEvent .rstart s) (fun t => t.tgt.phase))) =
      some (.direct, true, some .direct) := by decide
theorem test_fetch_ccc : after (step (State.reset.withFetchWord 8 0x8A)) (fun s => (s.tgt.phase, s.tgt.ccccur)) = some (.direct, 0x8A) := by
  decide

/-! ## Witnesses: what every statement supposes is met, every clause at a boundary of its range -/

theorem witness_EncodeDecode : decode .ccc [0x9A, 0x01] = .ok (.rstactD, [0x01]) := by decide
theorem witness_EncodeDecode_word : decode .control [0x04, 0x00, 0x10, 0x90] = .ok (.cwPriv true false 0x08 false 4, []) := by decide

theorem witness_ReservedCommandsRejected :
    bitField (0x00000400 : Word) 10 6 ≠ 0#6 ∧ bitField (0x80000000 : Word) 24 8 ≠ 0#8 ∧ bitField (0x00000310 : Word) 8 2 = 3#2 ∧
      (bitField (0x00000006 : Word) 0 8).toNat ∉ [0x01, 0x02, 0x03, 0x04, 0x05, 0x10, 0x11, 0x20, 0x21, 0x22, 0x23, 0x24,
        0x25, 0x30, 0x31, 0x32, 0x33, 0x34, 0x40, 0x41, 0x42] := by decide

/-- A state with turns to come. -/
def turns (ts : List Turn) (s : State) : State := { s with env.agenda := ts }

/-- A target that takes an event in its next turn. -/
def target (p : TgtPhase) (code : Byte) (e : PhyEvent) : State :=
  { turns [.event] tgt with env.events := [e], tgt.phase := p, tgt.ccccur := code }

/-- A target with a pending request and the PHY's answer to it. -/
def asks (op : Byte) (a : PhyAnswer) : State :=
  { tgt with ctl.life := .tgtreq, ctl.cmdp := true, ctl.pendop := op, tgt.tgtlen := 1, env.cue := .answer a }

theorem witness_StepRunsCommand :
    let s := turns [.host (.write 0x00 4 0x00010010), .event] State.reset
    s.env.params.legal = true ∧ s.env.agenda = .host (.write 0x00 4 0x00010010) :: [.event] ∧
      decode .command (bytes32 0x00010010) = .ok (.init .poll 1, []) := by decide
theorem witness_StepRunsCommand_turns :
    (turns [.host (.read 0x1C 4)] ctrl).env.agenda = .host (.read 0x1C 4) :: [] ∧
      (turns [.mover .m1 true] ctrl).env.agenda = .mover .m1 true :: [] ∧
      (turns [.timeout] ctrl).env.agenda = .timeout :: [] ∧
      { word .fetch .start .ok with ctl.tmo := true }.ctl.tmo = true ∧ (word .fetch .start .ok).ctl.cmdp = true ∧
      (word .fetch .start .ok).ctl.abortreq = false := by decide
/-- An ENGINE turn in controller role: a request in handling, DAA, SETDASA; and in target role, the request unit's. -/
theorem witness_StepRunsCommand_engine :
    let s := turns [.engine .main .ok] (word .fetch .start .ok)
    let r := turns [.engine .request .ack] (asks 0x34 .ack)
    s.env.agenda = .engine .main .ok :: [] ∧ (s.ctl.abortreq = false ∧ s.ctl.life ≠ .reset ∧ s.ctl.life ≠ .init) ∧
      s.ctl.mode = .controller ∧ { s with work.request := .ack 0x30 true }.work.request ≠ .idle ∧ s.work.request = .idle ∧
      { s with ctl.life := .daa }.ctl.life = .daa ∧ s.ctl.life ≠ .daa ∧ s.ctl.cmdp = true ∧
      { s with ctl.pendop := 0x25 }.ctl.pendop = 0x25 ∧ r.ctl.mode = .target ∧ r.env.agenda = .engine .request .ack :: [] ∧
      (r.ctl.abortreq = false ∧ r.ctl.life ≠ .reset ∧ r.ctl.life ≠ .init) := by decide
/-- A byte that waits for a full RXFIFO (the eighth of ten), and one that does not (in T_IGNORE). -/
theorem witness_StepRunsCommand_byte :
    let s := { target .privW 0 (.byte 1) with ctl.cmdp := true, ctl.pendop := 0x31, tgt.tgtlen := 10, cnt.datacnt := 8,
                                              fifo.rxfifo := List.replicate 8 0 }
    s.env.agenda = .event :: [] ∧ s.env.events = .byte 1 :: [] ∧
      (s.ctl.abortreq = false ∧ s.ctl.life ≠ .reset ∧ s.ctl.life ≠ .init) ∧ s.ctl.mode = .target ∧
      (s.tgt.phase = .privW ∧ s.env.params.rxfifoDepth ≤ s.fifo.rxfifo.length ∧
        s.cnt.datacnt.toNat ≠ min s.tgt.tgtlen.toNat s.cfg.mwl.toNat ∧ s.cfg.mwl ≠ 0) ∧
      (target .ignore 0 (.byte 1)).tgt.phase ≠ .privW := by decide
theorem witness_StepRunsCommand_request :
    let s := { turns [.event] ctrl with env.events := [.treq 0x30 true] }
    s.env.agenda = .event :: [] ∧ s.env.events = .treq 0x30 true :: [] ∧ s.ctl.mode = .controller ∧
      (s.ctl.abortreq = false ∧ s.ctl.life ≠ .reset ∧ s.ctl.life ≠ .init) ∧ s.seq.frame = false ∧ s.work.request = .idle ∧
      { s with seq.frame := true }.seq.frame = true := by decide
/-- A request that waits for the end of INIT. -/
theorem witness_StepRunsCommand_init :
    let s := { turns [.event] ctrl with env.events := [.treq 0x30 true], ctl.life := .init, ctl.cmdp := true }
    s.env.params.legal = true ∧ s.env.agenda = .event :: [] ∧ s.env.events = .treq 0x30 true :: [] ∧
      s.ctl.abortreq = false ∧ s.ctl.life = .init ∧ s.ctl.mode = .controller := by decide
/-- R520: a request delivered in INIT is handled once INIT is over. -/
theorem test_request_in_init :
    let s := { turns [.event] ctrl with env.events := [.treq 0x30 true], ctl.life := .init, ctl.cmdp := true }
    after (step s) (fun s => (s.env.events, s.seq.frame)) = some ([.treq 0x30 true], false) ∧
      after (step { s with ctl.life := .idle, ctl.cmdp := false }) (fun s => (s.env.events, s.seq.frame, s.work.request)) =
        some ([], true, .ack 0x30 true) := by decide

/-- Power-on, a write of the environment, a host access at the wrong address or of the wrong width, an illegal set. -/
theorem witness_StepRunsCommand_refused :
    (turns [.powerOn] ctrl).env.agenda = .powerOn :: [] ∧ (turns [.hostMem 0x300 1] ctrl).env.agenda = .hostMem 0x300 1 :: [] ∧
      (turns [.host (.read 0x1D 4)] ctrl).env.agenda = .host (.read 0x1D 4) :: [] ∧ (0x1D : Byte).toNat % 4 ≠ 0 ∧
      (turns [.host (.write 0x00 2 1)] ctrl).env.agenda = .host (.write 0x00 2 1) :: [] ∧ 2 ≠ 4 ∧
      ¬(1 ≤ { ctrl with env.params.sfifoDepth := 0 }.env.params.sfifoDepth) ∧
      ({ ctrl with work.request := .ack 0x30 true } : State).work.request ≠ .idle := by decide

/-- A START in flight whose next turn is the ENGINE's. -/
def flight (p : SeqPhase) : State :=
  { turns [.engine .main .ok] (word p .start .ok) with fifo.cfifo := [0x90100004], seq.cur := 0x90100004 }

theorem witness_StepRunsControlWord :
    let s := flight .fetch
    s.env.params.legal = true ∧ s.env.agenda = .engine .main .ok :: [] ∧ s.ctl.mode = .controller ∧ s.ctl.abortreq = false ∧
      s.ctl.life = .tx ∧ s.work.request = .idle ∧ s.ctl.cmdp = true ∧ s.ctl.pendop = 0x20 ∧
      decode .control (bytes32 0x90100004) = .ok (.cwPriv true false 0x08 false 4, []) ∧
      (s.seq.phase = .fetch ∧ s.ctl.suspended = false) ∧ s.fifo.cfifo = 0x90100004 :: [] := by decide
theorem witness_StepRunsControlWord_later :
    (flight .addr).seq.phase = .addr ∧ (flight .data).seq.phase = .data ∧ (flight .fin).seq.phase = .fin ∧
      (flight .fin).seq.cur = 0x90100004 := by decide

theorem witness_StepRunsCcc :
    let s := target .ccc 0 (.byte 0x9A)
    s.env.params.legal = true ∧ s.ctl.mode = .target ∧ s.ctl.abortreq = false ∧ s.ctl.life ≠ .reset ∧ s.ctl.life ≠ .init ∧
      s.env.agenda = .event :: [] ∧ s.env.events = .byte 0x9A :: [] ∧ s.tgt.phase = .ccc ∧
      decode .ccc [0x9A] = .ok (.rstactD, []) := by decide
theorem witness_StepRunsCcc_data :
    let s := target .directW 0x89 .rstart
    s.env.params.legal = true ∧ s.env.agenda = .event :: [] ∧ s.env.events = .rstart :: [] ∧ s.tgt.phase = .directW ∧
      decode .ccc [s.tgt.ccccur] = .ok (.setmwlD, []) := by decide
theorem witness_StepRunsCcc_address :
    let s := target .addr 0x80 (.addr 0x30 false)
    s.env.events = .addr 0x30 false :: [] ∧ s.tgt.phase = .addr ∧ 0x80 ≤ s.tgt.ccccur.toNat ∧ own s 0x30 = true ∧
      (0x30 : Addr7) ≠ 0x7E ∧ te0Addr 0x30 = false ∧ decode .ccc [s.tgt.ccccur] = .ok (.enecD, []) := by decide
theorem witness_StepRunsCcc_defining :
    let s := target .direct 0x9A (.byte 0x01)
    s.tgt.phase = .direct ∧ s.env.events = .byte 0x01 :: [] ∧ decode .ccc [s.tgt.ccccur] = .ok (.rstactD, []) := by decide
theorem witness_StepRunsCcc_assignment :
    let s := target .daa 0x07 .daaSr
    s.env.agenda = .event :: [] ∧ s.env.events = .daaSr :: [] ∧ s.tgt.phase = .daa := by decide
theorem witness_StepRunsCcc_response :
    let s := turns [.engine .drive .ok] { sends [0x46] 0 with tgt.ccccur := 0x8E }
    s.env.agenda = .engine .drive .ok :: [] ∧ s.tgt.phase = .directR ∧ decode .ccc [s.tgt.ccccur] = .ok (.getbcr, []) := by decide

/-- Power-on, and the host about to write INIT. -/
def boot : State := turns [.host (.write 0x00 4 0x00010010)] State.reset

theorem witness_StepKeepsMemory : MemoryOk boot ∧ PointersOk boot ∧ ∃ t, step boot = .next t :=
  ⟨by unfold MemoryOk; decide, by unfold PointersOk; decide, _, rfl⟩
theorem witness_StepKeepsLifecycle : LifecycleOk boot ∧ ∃ t, step boot = .next t := ⟨by unfold LifecycleOk; decide, _, rfl⟩
theorem witness_StepKeepsListen : ListenOk boot ∧ ∃ t, step boot = .next t := ⟨by unfold ListenOk; decide, _, rfl⟩
theorem witness_StepKeepsAddresses : AddressesOk boot ∧ ∃ t, step boot = .next t := ⟨by unfold AddressesOk; decide, _, rfl⟩
theorem witness_StepKeepsReserved : ReservedOk boot ∧ ∃ t, step boot = .next t := ⟨by unfold ReservedOk; decide, _, rfl⟩
theorem witness_StepKeepsCapacity : CapacityOk boot ∧ ∃ t, step boot = .next t := ⟨by unfold CapacityOk; decide, _, rfl⟩

theorem witness_NotifyRule : tgt.rep.noten.getLsbD (flagIndex .nDefList) = false := by decide
theorem witness_NotifyRule_target :
    let s := { tgt with rep.noten := 0x04010000, rep.ier := 0x04010000 }
    s.rep.noten.getLsbD (flagIndex .nDefList) = true ∧ flagIndex .nDefList = 16 + (10 : Fin 11).val ∧
      s.rep.noten.getLsbD (flagIndex .nGetacccr) = true ∧ flagIndex .nGetacccr = 16 + (0 : Fin 11).val ∧
      s.rep.ier.getLsbD (flagIndex .nDefList) = true := by decide
theorem witness_NotifyRule_controller :
    let s := { ctrl with rep.noten := 0x80, rep.ier := 0x80 }
    s.rep.noten.getLsbD (flagIndex .hj) = true ∧ flagIndex .hj < 16 ∧ s.rep.ier.getLsbD (flagIndex .hj) = true := by decide

theorem witness_RaiseErrorRule :
    let s := word .addr .addr .nack
    s.ctl.cmdp = true ∧ s.ctl.abortreq = false ∧ s.ctl.mode = .controller ∧ s.seq.frame = true := by decide
theorem witness_RaiseErrorRule_idle : ctrl.ctl.cmdp = false ∧ ctrl.ctl.mode = .controller := by decide
/-- An error that belongs to the pending HJ_REQ, and one that belongs to no command. -/
theorem witness_RaiseErrorRule_event :
    let s := { tgt with ctl.cmdp := true, ctl.pendop := 0x32, tgt.trq := .hjWaitDaa, tgt.phase := .daa }
    (s.ctl.cmdp = true ∧ s.ctl.pendop = 0x32 ∧ s.tgt.trq = .hjWaitDaa ∧ s.tgt.phase = .daa) ∧ ¬tgt.ctl.cmdp = true := by
  decide
theorem witness_RaiseErrorRule_target :
    let s := { tgt with ctl.cmdp := true, ctl.pendop := 0x31 }
    s.ctl.cmdp = true ∧ s.ctl.abortreq = false ∧ s.ctl.mode = .target := by decide
theorem witness_ErrorUnderAbort :
    let s := { word .data .data .ok with ctl.abortreq := true, ctl.life := .abort }
    s.ctl.cmdp = true ∧ s.ctl.abortreq = true := by decide
theorem witness_AbortAndTimeout :
    let s := { word .data .data .ok with ctl.abortreq := true, ctl.life := .abort, ctl.strat := .dma, work.rxBase := 0x300, work.rxCap := 4 }
    s.ctl.cmdp = true ∧ (s.ctl.mode = .controller ∧ s.seq.frame = true) ∧ s.ctl.abortreq = true ∧ PhyAnswer.ok ≠ .err .ce0 ∧
      Outside s (s.work.rxBase + s.cnt.datacnt.toNat) (s.work.rxCap.toNat - s.cnt.datacnt.toNat) 0x304 := by
  unfold Outside; decide
theorem witness_AbortAndTimeout_poll :
    (word .data .data .ok).ctl.cmdp = true ∧ (word .data .data .ok).ctl.strat ≠ .dma ∧
      { tgt with ctl.cmdp := true, ctl.pendop := 0x31 }.ctl.mode = .target := by decide

/-- An address request that the PHY answers with CE1 while an abort is pending, and a wait that makes no request. -/
theorem witness_AbortAndTimeout_error :
    let s := { word .addr .addr (.err .ce1) with ctl.abortreq := true, ctl.life := .abort, seq.cur := 0x90100004 }
    Answered (.err .ce1) s ∧ s.ctl.mode = .controller ∧ ∃ v, controllerStep s = .next v ∧
      .req (.addr 0x08 false) ∈ v.env.bus.take (v.env.bus.length - s.env.bus.length) ∧
      ErrCode.ce1 ∈ ([.ce0, .ce1, .ce3, .stall] : List ErrCode) := ⟨rfl, rfl, _, rfl, by decide, by decide⟩
theorem witness_AbortAndTimeout_wait :
    let s := { word .fetch .start (.err .ce1) with ctl.abortreq := true, ctl.life := .abort, cnt.ctrlrem := 1 }
    Answered (.err .ce1) s ∧ controllerStep s = .next s := ⟨rfl, rfl⟩

theorem witness_AllocSmallest :
    alloc { ctrl with daa.next := 0x7D } = some 0x7D ∧ alloc { ctrl with daa.next := 0x7E } = none := by decide

theorem witness_WriteOneToClear :
    ctrl.ctl.life = .idle ∧ (word .fetch .start .ok).ctl.life ≠ .idle ∧
      ((0xBE : Word).getLsbD 7 = true ∧ validDa (bitField (0xBE : Word) 0 7) = false) ∧
      ¬((0x88 : Word).getLsbD 7 = true ∧ validDa (bitField (0x88 : Word) 0 7) = false) ∧ (0xDC : Byte).toNat % 4 = 0 := by
  decide

theorem witness_LongCommandGate :
    ctrl.ctl.mode ≠ .target ∧ (word .data .data .ok).ctl.cmdp = true ∧ ctrl.ctl.life ≠ .reset ∧
      { ctrl with ctl.recov := true }.ctl.recov = true := by decide
theorem witness_LongCommandGate_strategy :
    (ctrl.ctl.mode = .controller ∧ ctrl.ctl.cmdp = false ∧ ctrl.ctl.life = .idle ∧ ctrl.ctl.recov = false) ∧
      ¬StratOk [.poll, .irq] .dma ctrl ∧ ¬StratOk [.poll, .irq, .dma] .dma { ctrl with env.params.dma := false } ∧
      (State.reset.ctl.mode = .none ∧ State.reset.ctl.cmdp = false ∧ State.reset.ctl.life = .reset) ∧
      ¬StratOk [.poll] .irq State.reset ∧ (tgt.ctl.mode = .target ∧ tgt.ctl.life = .idle) := by unfold StratOk; decide

theorem witness_BuilderPurity : ∃ t, exec (.buildPrivate .poll 0x10) p1 = .next t := ⟨_, rfl⟩

theorem witness_FifoPorts :
    { ctrl with fifo.sfifo := [0x01010002] }.fifo.sfifo = 0x01010002 :: [] ∧ ctrl.fifo.sfifo = [] ∧
      { ctrl with fifo.rxfifo := [0x40] }.fifo.rxfifo = 0x40 :: [] ∧ ctrl.fifo.rxfifo = [] := by decide

theorem witness_MoverMoves :
    let s := { word .data .data .ok with fifo.rxfifo := [0x40] }
    s.ctl.cmdp = true ∧ s.ctl.pendop = 0x20 ∧ s.ctl.life = .tx ∧ s.fifo.rxfifo = 0x40 :: [] := by decide
theorem witness_MoverMoves_empty :
    let s := word .data .data .ok
    s.ctl.cmdp = true ∧ s.ctl.pendop = 0x20 ∧ s.ctl.life = .tx ∧ s.fifo.rxfifo = [] := by decide

theorem witness_CtxResetCompletes :
    MemoryOk p1 ∧ p1.arg.arg0.toNat % 4 = 0 ∧ WritableBlock p1 p1.arg.arg0.toNat 48 ∧
      Outside p1 p1.arg.arg0.toNat 48 0x20000030 := by
  unfold MemoryOk WritableBlock Outside; decide
/-- A context whose last byte cannot be written. -/
theorem witness_CtxResetCompletes_partial :
    let s := { p1 with env.params.memmap := [{ base := 0x2000002F, size := 1, readable := true, writable := false }] }
    MemoryOk s ∧ s.arg.arg0.toNat % 4 = 0 ∧ WritableBlock s s.arg.arg0.toNat 47 ∧
      writable s (byteAt s s.arg.arg0.toNat 47) = false := by
  unfold MemoryOk WritableBlock; decide
theorem witness_CtxResetCompletes_misaligned : ({ p1 with arg.arg0 := 0x20000003 } : State).arg.arg0.toNat % 4 ≠ 0 := by decide

theorem witness_CtxBindCompletes :
    let ctx := p1.arg.arg0.toNat
    MemoryOk p1 ∧ ctx % 4 = 0 ∧ (2 : Byte).toNat ≤ 2 ∧ ((2 : Byte) = 0 → p1.arg.arg1.toNat % 4 = 0) ∧
      WritableBlock p1 (ctx + 8 * (2 : Byte).toNat) 8 ∧ writable p1 (byteAt p1 ctx 0x25) = true ∧
      6 ≤ p1.env.params.addrW ∧ Outside p1 (ctx + 8 * (2 : Byte).toNat) 8 0x20000018 ∧ 0x20000018 ≠ byteAt p1 ctx 0x25 := by
  unfold MemoryOk WritableBlock Outside; decide
theorem witness_CtxBindCompletes_bad :
    2 < (3 : Byte).toNat ∧ ({ p1 with arg.arg1 := 0x20000101 } : State).arg.arg1.toNat % 4 ≠ 0 ∧
      ({ p1 with arg.arg0 := 0x20000001 } : State).arg.arg0.toNat % 4 ≠ 0 := by decide

/-- A context whose capacity field, and one whose BUILT field, cannot be written. -/
theorem witness_CtxBindCompletes_partial :
    let s := { p1 with env.params.memmap := [{ base := 0x2000000F, size := 1, readable := true, writable := false }] }
    let t := { p1 with env.params.memmap := [{ base := 0x20000025, size := 1, readable := true, writable := false }] }
    MemoryOk s ∧ WritableBlock s 0x20000008 4 ∧ ¬WritableBlock s (0x20000008 + 4) 4 ∧ s.arg.arg0.toNat + 8 * 1 = 0x20000008 ∧
      WritableBlock t (0x20000008 + 4) 4 ∧ writable t (byteAt t 0x20000000 0x25) = false := by
  unfold MemoryOk WritableBlock; decide

/-- The descriptor of P1. -/
def p1Desc : Descriptor := { addr := 0x08, ccc := 0, dir := 0, rsvd := 0, count := 4 }

/-- The bindings of P1. -/
def p1Bindings : Bindings :=
  { ctrlBuf := 0x20000100, ctrlCap := 8, txBuf := 0x20000200, txCap := 4, rxBuf := 0, rxCap := 0 }

theorem witness_BuildValidation : validate false 0x10 p1 = some ([p1Desc], p1Bindings) := by decide
theorem witness_BuildCompletes :
    MemoryOk p1 ∧ validate false 0x10 p1 = some ([p1Desc], p1Bindings) ∧
      WritableBlock p1 p1Bindings.ctrlBuf.toNat (4 * (wordsOf (modeByteOf 0x10) [p1Desc]).length) ∧
      WritableBlock p1 (p1.arg.arg0.toNat + 0x18) 15 ∧ WritableBlock p1 (p1.arg.arg0.toNat + 0x28) 4 ∧
      6 ≤ p1.env.params.addrW := by
  unfold MemoryOk WritableBlock; decide
theorem witness_BuildCompletes_words :
    let n := 4 * (wordsOf (modeByteOf 0x10) [p1Desc]).length
    let buf := p1Bindings.ctrlBuf.toNat
    let ctx := p1.arg.arg0.toNat
    n ≤ 2 ^ p1.env.params.addrW ∧
      (∀ k, k < n → Outside p1 (ctx + 0x18) 15 (byteAt p1 buf k) ∧ Outside p1 (ctx + 0x28) 4 (byteAt p1 buf k)) ∧
      0 < (wordsOf (modeByteOf 0x10) [p1Desc]).length ∧
      (Outside p1 buf n 0x20000000 ∧ Outside p1 (ctx + 0x18) 15 0x20000000 ∧ Outside p1 (ctx + 0x28) 4 0x20000000) := by
  unfold Outside; decide
/-- A build whose one control word cannot be written, and one whose BUILT field cannot. -/
theorem witness_BuildCompletes_partial :
    let s := { p1 with env.params.memmap := [{ base := 0x20000103, size := 1, readable := true, writable := false }] }
    let t := { p1 with env.params.memmap := [{ base := 0x20000025, size := 1, readable := true, writable := false }] }
    MemoryOk s ∧ validate false 0x10 s = some ([p1Desc], p1Bindings) ∧ ¬WritableBlock s 0x20000100 4 ∧
      WritableBlock t 0x20000100 4 ∧ WritableBlock t (0x20000000 + 0x28) 4 ∧ ¬WritableBlock t (0x20000000 + 0x25) 1 ∧
      2 ≤ t.env.params.addrW := by
  unfold MemoryOk WritableBlock; decide
theorem witness_BuildCompletes_invalid : MemoryOk p1 ∧ validate true 0x10 p1 = none := by unfold MemoryOk; decide
theorem witness_BuildWordLaws :
    0 < [p1Desc].length ∧ (modeByteOf 0x10).cls = .privateI3c ∧ (modeByteOf 0x11).cls = .legacyI2c ∧
      (modeByteOf 0x1F).cls = .cccBroadcast ∧ (modeByteOf 0x1E).cls = .cccDirect := by decide

theorem witness_InitCompletes :
    State.reset.ctl.mode = .none ∧ State.reset.ctl.cmdp = false ∧ State.reset.ctl.life = .reset ∧ (0 : Byte) ≠ 1 ∧ (0 : Byte) ≠ 2 ∧
      (3 : Byte) ≠ 1 ∧ (3 : Byte) ≠ 2 := by decide
theorem witness_InitCompletes_modes :
    ((1 : Byte) = 1 ∧ Mode.controller = .controller) ∧ ((2 : Byte) = 2 ∧ Mode.target = .target) := by decide

theorem witness_StartAccepted :
    let s := { p1 with mem := p1Built }
    let ctx := s.arg.arg0.toNat
    Ready .controller s ∧ s.ctl.recov = false ∧ StratOk [.poll, .irq, .dma] .dma s ∧ ctx % 4 = 0 ∧
      (∀ k, k < 48 → readable s (byteAt s ctx k) = true) ∧ Memory.read s.mem (byteAt s ctx 0x25) = 1 ∧
      wordAt s s.mem (ctx + 0x18) ≠ 0 ∧ (wordAt s s.mem (ctx + 0x00)).toNat % 4 = 0 := by unfold Ready StratOk; decide
theorem witness_StartAccepted_rejected :
    let ctx := p1.arg.arg0.toNat
    (∃ k, k < 48 ∧
        readable { p1 with env.params.memmap := [{ base := 0x2000002F, size := 1, readable := false, writable := true }] }
          (byteAt p1 ctx k) = false) ∧
      Memory.read p1.mem (byteAt p1 ctx 0x25) ≠ 1 ∧ wordAt p1 p1.mem (ctx + 0x18) = 0 ∧
      (wordAt p1 (Memory.write p1.mem ctx 0x02) (ctx + 0x00)).toNat % 4 ≠ 0 :=
  ⟨⟨47, by decide, by decide⟩, by decide, by decide, by decide⟩

theorem witness_OneShotsAccepted : Ready .controller ctrl ∧ ctrl.ctl.recov = false := by unfold Ready; decide
/-- A one-shot command before a PHY request, with the answer. -/
def oneShot (op : Byte) (m : Micro) (a : PhyAnswer) : State :=
  { ctrl with
    ctl.life := .tx, ctl.cmdp := true, ctl.pendop := op, seq.frame := true, work.micro := m, work.opAddr := 0x08,
    work.opData := 0x09, work.opOk := true, work.trial := 1, work.trials := 2, env.cue := .answer a }
theorem witness_OneShotsAccepted_steps :
    let s := oneShot 0x23 .hdr .nack
    s.work.request = .idle ∧ s.ctl.life = .tx ∧ s.ctl.cmdp = true ∧ s.ctl.pendop = 0x23 ∧ s.work.micro = .hdr ∧
      Answered .nack s ∧ Answered .ok (oneShot 0x24 .stop .ok) ∧ Answered .ok (oneShot 0x25 .start .ok) ∧
      Answered (.arb 0x30 true) (oneShot 0x24 .start (.arb 0x30 true)) ∧
      Answered (.err .ce0) (oneShot 0x24 .addr (.err .ce0)) := by unfold Answered; decide

theorem witness_DaaAccepted : Ready .controller ctrl ∧ ctrl.ctl.recov = false := by unfold Ready; decide
/-- A DAA under POLL whose output array holds one more payload. -/
def assigning (p : DaaPhase) (m : Micro) (a : PhyAnswer) : State :=
  { ctrl with
    ctl.life := .daa, ctl.cmdp := true, ctl.pendop := 0x22, daa.phase := p, daa.da := 0x08, daa.next := 0x08,
    daa.ptr := 0x2000, daa.room := 1, work.micro := m, seq.frame := true, env.cue := .answer a }
theorem witness_DaaAccepted_phases :
    Answered .ok (assigning .rstdaa .start .ok) ∧ Answered .nack (assigning .entdaa .hdr .nack) ∧
      Answered .ok (assigning .loop .start .ok) ∧
      (({ assigning .loop .start .ok with ctl.strat := .irq, rep.isr := 8 } : State).ctl.strat = .irq ∧
        ({ assigning .loop .start .ok with rep.isr := 8 } : State).rep.isr.getLsbD 3 = true) ∧
      ((assigning .loop .start .ok).ctl.strat = .poll ∧ ({ assigning .loop .start .ok with daa.room := 0 } : State).daa.room = 0) ∧
      Answered (.payload 0x04A212345000C627) (assigning .loop .data (.payload 0x04A212345000C627)) ∧
      alloc (assigning .assign .start .ok) = some 0x08 ∧ alloc { assigning .assign .start .ok with daa.next := 0x7E } = none ∧
      Answered (.arb 0x30 true) (assigning .entdaa .start (.arb 0x30 true)) ∧
      Answered (.err .stall) (assigning .assign .data (.err .stall)) := by unfold Answered; decide
theorem witness_DaaAccepted_device :
    let s := { assigning .assign .data .ack with env.params.daaTiming := .postAssign }
    s.daa.phase = .assign ∧ s.work.micro = .data ∧ Answered .ack s ∧ s.ctl.strat = .poll ∧
      ¬s.env.params.daaTiming = .preAssign ∧ ((List.range 8).all fun k => writable s (byteAt s s.daa.ptr k)) = true := by
  unfold Answered; decide

theorem witness_TargetTransfersAccepted : Ready .target tgt ∧ StratOk [.poll, .irq, .dma] .dma tgt := by
  unfold Ready StratOk; decide
theorem witness_TargetRequestsAccepted : Ready .target tgt ∧ (Strat.irq = .poll ∨ Strat.irq = .irq) := by unfold Ready; decide

theorem witness_TargetRequestAnswers :
    (asks 0x32 .ack).tgt.phase = .idle ∧ (asks 0x32 .ack).tgt.trq = .none ∧ (asks 0x32 .ack).ctl.cmdp = true ∧
      (asks 0x32 .ack).ctl.pendop = 0x32 ∧ (asks 0x32 .ack).tst.enhj = true ∧ Answered .ack (asks 0x32 .ack) ∧
      Answered .nack (asks 0x33 .nack) ∧ Answered .lost (asks 0x34 .lost) ∧ (asks 0x34 .ack).tgt.tgtlen ≠ 0 ∧
      { asks 0x34 .ack with tst.enint := false }.tst.enint = false ∧
      Answered (.err .te6) (asks 0x34 (.err .te6)) := by unfold Answered; decide
theorem witness_TargetRequestAnswers_payload :
    let s := { asks 0x34 .ok with tgt.trq := .ibiData, fifo.txfifo := [0x11] }
    s.ctl.cmdp = true ∧ s.tgt.trq = .ibiData ∧ s.ctl.pendop = 0x34 ∧ s.fifo.txfifo = 0x11 :: [] ∧ Answered .ok s ∧
      decide (s.cnt.datacnt + 1 = s.tgt.tgtlen) = true ∧ { s with fifo.txfifo := [] }.fifo.txfifo = [] ∧
      Answered .stopped { s with env.cue := .answer .stopped } ∧
      { s with tgt.trq := .none, tgt.phase := .addr }.tgt.phase ≠ .idle := by unfold Answered; decide

theorem witness_TargetPrivateTransfer_write : (hears .privW (.byte 0x01) []).tgt.phase = .privW := by decide
/-- The broadcast address and its neighbours, an own address under a direct CCC (a supported and an unsupported code) and for
a pending TGT_RX, and one outside T_ADDR. -/
theorem witness_TargetPrivateTransfer_address :
    let s := hears .addr (.addr 0x30 false) []
    s.tgt.phase = .addr ∧ (0x30 : Addr7) ≠ 0x7E ∧ (0x7C : Addr7) ∈ ([0x3E, 0x5E, 0x6E, 0x76, 0x7A, 0x7C, 0x7F] : List Addr7) ∧
      (s.cfg.dav = true ∧ (0x30 : Addr7) = s.cfg.da) ∧
      (0x80 ≤ ({ s with tgt.ccccur := 0x8B } : State).tgt.ccccur.toNat ∧ decode .ccc [0x8B] = .ok (.getmwl, []) ∧
        decode .ccc [0x92] = .error .unsupportedCcc) ∧
      ({ asks 0x31 .ok with tgt.phase := .addr }.ctl.cmdp = true ∧ (asks 0x31 .ok).ctl.pendop = 0x31 ∧
        (asks 0x31 .ok).tgt.tgtend = false) ∧ tgt.tgt.phase ≠ .addr := by decide
theorem witness_TargetPrivateTransfer_close :
    let s := { asks 0x31 .ok with tgt.tgtend := true }
    s.ctl.cmdp = true ∧ s.ctl.pendop = 0x31 ∧ s.tgt.tgtend = true ∧ s.cnt.rxrem = 0 := by decide
theorem witness_TargetPrivateTransfer_read :
    let s := { asks 0x30 .ok with tgt.phase := .privR, fifo.txfifo := [0x11] }
    s.tgt.phase = .privR ∧ s.ctl.cmdp = true ∧ s.ctl.pendop = 0x30 ∧ s.tgt.tgtend = false ∧ s.fifo.txfifo = 0x11 :: [] ∧
      Answered .ok s := by unfold Answered; decide

/-- A controller that knows a device at 0x30, its IBIs acknowledged, with payload and suspension, and handles a request. -/
def serves (r : RequestPhase) (ibiack : Bool) : State :=
  { ctrl with
    cfg.bdt := ctrl.cfg.bdt.set 3 { da := 0x30, v := true, ibiack, ibiden := true, crack := true, susp := true }
    work.request := r }

theorem witness_IbiReception :
    Answered .ok (serves (.ack 0x30 true) true) ∧ (serves (.ack 0x30 true) true).work.request = .ack 0x30 true ∧
      bdtFind (serves (.ack 0x30 true) true) 0x30 = some 3 ∧ (serves (.ack 0x30 true) true).cfg.bdt[3].ibiack = true ∧
      bdtFind (serves (.ack 0x31 true) true) 0x31 = none ∧ bdtFind (serves (.ack 0x30 true) false) 0x30 = some 3 ∧
      (serves (.ack 0x30 true) false).cfg.bdt[3].ibiack = false := by unfold Answered; decide
theorem witness_IbiReception_rest :
    (serves (.data 3 3) true).work.request = .data 3 3 ∧ (serves (.stop (.ibi 3)) true).work.request = .stop (.ibi 3) ∧
      Answered .ok (serves (.stop (.ibi 3)) true) ∧
      Answered (.byte 0x55 true) { serves (.data 3 3) true with env.cue := .answer (.byte 0x55 true) } ∧
      Answered (.err .ce1) { serves (.data 3 3) true with env.cue := .answer (.err .ce1) } ∧
      ((serves (.data 3 3) true).ctl.cmdp = false ∧ (serves (.data 3 3) true).ctl.mode = .controller) ∧
      { serves (.data 3 3) true with ctl.cmdp := true }.ctl.cmdp = true := by unfold Answered; decide
theorem witness_IbiReception_others :
    (serves (.ack 0x02 false) true).work.request = .ack 0x02 false ∧ { serves (.ack 0x02 false) true with cfg.hjack := true }.cfg.hjack = true ∧
      (0x30 : Addr7) ≠ 0x02 ∧ bdtFind (serves (.ack 0x30 false) true) 0x30 = some 3 ∧
      (serves (.ack 0x30 false) true).cfg.bdt[3].crack = true ∧ bdtFind (serves (.ack 0x31 false) true) 0x31 = none ∧
      (serves (.stop .hj) true).work.request = .stop .hj ∧ (serves (.stop .none) true).work.request = .stop .none := by decide

theorem witness_GetCccInfoCompletes :
    ctrl.ctl.mode ≠ .target ∧ (tgt.ctl.mode = .target ∧ tgt.ctl.life ≠ .reset) ∧ (15 : Word).toNat < 16 ∧ 26 < (27 : Word).toNat ∧
      (16 : Word).toNat = 16 + (0 : Fin 11).val ∧ (26 : Word).toNat = 16 + (10 : Fin 11).val ∧ tgt.snap.slots[0].pend = false := by
  decide
theorem witness_GetCccInfoCompletes_pending :
    let s := { tgt with arg.arg0 := 26, snap.slots := tgt.snap.slots.set 10 (snapshotOf tgt) }
    s.ctl.mode = .target ∧ s.ctl.life ≠ .reset ∧ s.arg.arg0.toNat = 16 + (10 : Fin 11).val ∧ s.snap.slots[10].pend = true := by
  decide

theorem witness_WordFetched :
    Sequencing .fetch (word .fetch .start .ok) ∧
      { word .fetch .start .ok with fifo.cfifo := [0x28000000] }.fifo.cfifo = 0x28000000 :: [] ∧
      decode .control (bytes32 0x28000000) = .error .reservedMtype ∧ (word .fetch .start .ok).fifo.cfifo = [] ∧
      (word .fetch .start .ok).cnt.ctrlrem = 0 ∧ (word .fetch .start .ok).seq.frame = true := by unfold Sequencing; decide
/-- A suspended START, with a word at the head of CFIFO and before a message start (vector Q21). -/
theorem witness_WordFetched_suspended :
    let s := { word .fetch .start .ok with ctl.suspended := true, fifo.cfifo := [0x90100004] }
    s.ctl.suspended = true ∧ s.seq.phase = .fetch ∧ { s with seq.phase := .addr }.seq.phase = .addr := by decide
theorem witness_WordStarts :
    let s := { word .addr .start .ok with seq.frame := false }
    Sequencing .addr s ∧ s.work.micro = .start ∧ s.seq.frame = false ∧ Answered .ok s := by unfold Sequencing Answered; decide
theorem witness_WordStarts_frame :
    let s := word .addr .start .ok
    Sequencing .addr s ∧ s.work.micro = .start ∧ s.seq.frame = true ∧ Answered .ok s ∧
      Answered (.arb 0x30 true) (word .addr .start (.arb 0x30 true)) := by unfold Sequencing Answered; decide
theorem witness_WordAddressed :
    Sequencing .addr (word .addr .hdr .ack) ∧ (word .addr .hdr .ack).work.micro = .hdr ∧ Answered .ack (word .addr .hdr .ack) ∧
      Answered .nack (word .addr .hdr .nack) ∧ Answered (.err .ce0) (word .addr .hdr (.err .ce0)) ∧
      (word .addr .rstart .ok).work.micro = .rstart ∧ Answered .ok (word .addr .rstart .ok) := by
  unfold Sequencing Answered; decide
theorem witness_WordAddressed_code :
    Sequencing .addr (word .addr .code .ok) ∧ (word .addr .code .ok).work.micro = .code ∧ Answered .ok (word .addr .code .ok) ∧
      Answered (.err .stall) (word .addr .code (.err .stall)) := by
  unfold Sequencing Answered; decide
theorem witness_WordAddressed_address :
    Sequencing .addr (word .addr .addr .ack) ∧ (word .addr .addr .ack).work.micro = .addr ∧ Answered .ack (word .addr .addr .ack) ∧
      ¬(true = true ∧ (0 : BitVec 16) = 0 ∧ (word .addr .addr .ack).seq.ccclast = 0x91) ∧
      Answered .nack (word .addr .addr .nack) ∧ Answered (.err .ce1) (word .addr .addr (.err .ce1)) := by
  unfold Sequencing Answered; decide
/-- A GETACCCR read of length 0. -/
theorem witness_WordAddressed_ce3 :
    let s := { word .addr .addr .ack with seq.ccclast := 0x91 }
    Sequencing .addr s ∧ s.work.micro = .addr ∧ Answered .ack s ∧ s.seq.ccclast = 0x91 ∧ s.seq.curdone = 0 := by
  unfold Sequencing Answered; decide
theorem witness_WordWritesByte :
    (word .data .data .ok).seq.phase = .data ∧ (word .data .data .ok).fifo.txfifo = [] ∧ Answered .ok (word .data .data .ok) ∧
      { word .data .data .nack with fifo.txfifo := [0x11] }.fifo.txfifo = 0x11 :: [] ∧
      Answered .nack (word .data .data .nack) ∧ Answered (.err .ce1) (word .data .data (.err .ce1)) := by unfold Answered; decide
theorem witness_WordReadsByte :
    let s := word .data .data (.byte 0x40 false)
    s.seq.phase = .data ∧ s.work.rxHold = none ∧ s.fifo.rxfifo.length < s.env.params.rxfifoDepth ∧
      Answered (.byte 0x40 false) s ∧ s.seq.ccclast ≠ 0x91 ∧ (1 : BitVec 16).toNat ≤ (s.seq.curdone + 1).toNat ∧
      { s with seq.ccclast := 0x91 }.seq.ccclast = 0x91 ∧ s.seq.curdone + 1 ≠ 0 := by unfold Answered; decide
/-- A right GETACCCR answer of target 0x30 (three ones), and one with the wrong parity (two ones). -/
theorem witness_WordReadsByte_parity :
    (bitField (0x61 : Byte) 1 7 = 0x30 ∧ (List.range 8).countP (fun i => (0x61 : Byte).getLsbD i) % 2 = 1) ∧
      bitField (0x60 : Byte) 1 7 = 0x30 ∧ ¬(List.range 8).countP (fun i => (0x60 : Byte).getLsbD i) % 2 = 1 := by decide
theorem witness_WordReadHeld :
    let s := { word .data .data (.byte 0x40 true) with fifo.rxfifo := List.replicate 8 0 }
    s.seq.phase = .data ∧ s.work.rxHold = none ∧ s.env.params.rxfifoDepth ≤ s.fifo.rxfifo.length ∧
      Answered (.byte 0x40 true) s ∧ { s with work.rxHold := some (0x40, true) }.work.rxHold = some (0x40, true) ∧
      Answered (.err .stall) { s with env.cue := .answer (.err .stall) } := by
  unfold Answered; decide
theorem witness_WordReadHeld_room :
    let s := { word .data .data .ok with work.rxHold := some (0x61, false), seq.ccclast := 0x91, fifo.rxfifo := List.replicate 7 0 }
    s.seq.phase = .data ∧ s.work.rxHold = some (0x61, false) ∧ ¬s.env.params.rxfifoDepth ≤ s.fifo.rxfifo.length ∧
      s.seq.ccclast = 0x91 ∧ s.seq.curdone + 1 ≠ 0 := by decide
theorem witness_WordEnds :
    let s := { word .fin .start .ok with seq.cur := addrWord 2 true false 0x08 false 4 }
    s.seq.phase = .fin ∧ (0x7F : Byte).toNat < 0x80 ∧ s.seq.cur = addrWord 2 true false 0x08 false 4 ∧ s.work.micro = .start ∧
      Answered .ok s ∧ ¬(s.cfg.sfen = true ∧ s.env.params.sfifoDepth ≤ s.fifo.sfifo.length) ∧
      (s.cnt.ctrlrem = 0 ∧ s.fifo.cfifo = [] ∧ ({ s with seq.frame := false } : State).seq.frame = false) ∧ s.cnt.rxrem = 0 := by
  unfold Answered; decide
theorem witness_WordEnds_drain :
    let s := { word .fin .drain .ok with seq.cur := cccWord true false 0x7F 0 }
    s.seq.phase = .fin ∧ s.seq.cur = cccWord true false 0x7F 0 ∧ s.work.micro = .drain ∧ s.cnt.rxrem = 0 ∧
      { s with cnt.rxrem := 1 }.cnt.rxrem ≠ 0 := by decide
theorem witness_WordEnds_full :
    let s := { word .fin .start .ok with cfg.sfen := true, fifo.sfifo := [0, 0, 0, 0], cnt.ctrlrem := 1, cnt.rxrem := 1 }
    s.cfg.sfen = true ∧ s.env.params.sfifoDepth ≤ s.fifo.sfifo.length ∧ s.cnt.ctrlrem ≠ 0 ∧ s.cnt.rxrem ≠ 0 := by decide

theorem witness_CccCodesReceived : Takes (.byte 0x9A) (hears .ccc (.byte 0x9A) []) ∧ (hears .ccc (.byte 0x9A) []).tgt.phase = .ccc := by
  unfold Takes; decide
/-- The bounds of the undefined and the unsupported codes, which exclude each other. -/
theorem witness_CccCodesReceived_codes :
    ([0x0D, 0x11, 0x13, 0x1F, 0x2E, 0x60, 0x9E, 0xDF, 0xFF] : List Byte).map (fun b => decode .ccc [b]) =
        List.replicate 9 (.error .undefinedCcc) ∧
      ([0x0B, 0x0C, 0x12, 0x28, 0x29, 0x2C, 0x2D, 0x61, 0x7F, 0x92, 0x99, 0x9B, 0x9D, 0xE0, 0xFE] : List Byte).map
          (fun b => decode .ccc [b]) = List.replicate 15 (.error .unsupportedCcc) := by decide
theorem witness_CccCodesReceived_data :
    (hears .cccData (.byte 1) [0, 0, 0, 0, 0, 0, 0]).tgt.phase = .cccData ∧ Takes (.byte 1) (hears .cccData (.byte 1) []) ∧
      8 ≤ (hears .directW (.byte 1) [0, 0, 0, 0, 0, 0, 0, 0]).tgt.cccbuf.length ∧
      (hears .directW (.byte 1) []).tgt.phase = .directW ∧ (hears .direct (.byte 1) []).tgt.phase = .direct ∧
      decode .ccc [({ hears .direct (.byte 1) [] with tgt.ccccur := 0xFF } : State).tgt.ccccur] = .error .undefinedCcc ∧
      (hears .addr (.byte 1) []).tgt.phase ∈ ([.idle, .addr, .privR, .directR] : List TgtPhase) ∧
      (hears .ignore (.byte 1) []).tgt.phase = .ignore := by unfold Takes; decide
/-- Bytes in T_DIRECT after an undefined code, at both bounds, after an unsupported and after a supported one. -/
theorem witness_CccCodesReceived_direct :
    let s := fun c : Byte => { hears .direct (.byte 1) [] with tgt.ccccur := c, tgt.ignstop := true }
    (s 0x9E).tgt.phase = .direct ∧ (s 0x9E).tgt.ignstop = true ∧ (s 0x9E).tgt.ccccur.toNat = 0x9E ∧
      (s 0xFF).tgt.ccccur.toNat = 0xFF ∧ decode .ccc [(s 0xE0).tgt.ccccur] = .error .unsupportedCcc ∧
      (0x80 ≤ (s 0xE0).tgt.ccccur.toNat ∧ ¬((s 0xE0).tgt.ccccur.toNat ≤ 0xDF ∨ (s 0xE0).tgt.ccccur.toNat = 0xFF)) := by decide
theorem witness_EventCccs :
    Takes .stop (hears .cccData .stop [0x0B]) ∧ (hears .cccData .stop [0x0B]).tgt.phase = .cccData ∧
      (hears .cccData .stop [0x0B]).tgt.cccbuf.length = 1 ∧ (hears .directW .rstart [0x0B]).tgt.phase = .directW ∧
      Takes .rstart (hears .directW .rstart [0x0B]) := by unfold Takes; decide
theorem witness_RegisterCccs :
    Takes .stop (hears .cccData .stop [1, 0]) ∧ (hears .cccData .stop [1, 0]).tgt.phase = .cccData ∧
      (hears .cccData .stop [1, 0]).tgt.cccbuf.length = 2 ∧ (hears .directW .start []).tgt.phase = .directW := by unfold Takes; decide
theorem witness_AddressCccs :
    Takes .stop (hears .cccData .stop []) ∧ (hears .cccData .stop []).tgt.phase = .cccData ∧
      (hears .directW .stop [0x12]).tgt.phase = .directW ∧ Takes .stop (hears .directW .stop [0x12]) := by unfold Takes; decide
theorem witness_DirectCccAddressed :
    Takes (.addr 0x30 true) (hears .addr (.addr 0x30 true) []) ∧ (hears .addr (.addr 0x30 true) []).tgt.phase = .addr ∧
      (bitField (hears .addr (.addr 0x30 true) []).cfg.bcr 6 2 = 1 ∧ (hears .addr (.addr 0x30 true) []).cfg.dav = true) ∧
      ¬(bitField { hears .addr (.addr 0x30 true) [] with cfg.bcr := 0x06 }.cfg.bcr 6 2 = 1) := by unfold Takes; decide
theorem witness_GetResponsesSent :
    (sends [0x01, 0x00] 1).tgt.phase = .directR ∧ Answered .ok (sends [0x01, 0x00] 1) ∧
      Answered .stopped { sends [0x01, 0x00] 1 with env.cue := .answer .stopped } ∧
      Answered (.err .te6) { sends [0x01, 0x00] 1 with env.cue := .answer (.err .te6) } := by unfold Answered; decide
theorem witness_ListCccs :
    (hears .ccc (.byte 0x08) []).tgt.phase = .ccc ∧ Takes (.byte 0x08) (hears .ccc (.byte 0x08) []) ∧
      (hears .cccData (.byte 0x55) []).tgt.phase = .cccData ∧ Takes (.byte 0x55) (hears .cccData (.byte 0x55) []) ∧
      Takes .stop (hears .cccData .stop []) := by unfold Takes; decide
theorem witness_EntdaaEnthdr :
    (hears .ccc (.byte 0x07) []).tgt.phase = .ccc ∧ Takes (.byte 0x07) (hears .ccc (.byte 0x07) []) ∧
      (hears .daa .daaSr []).tgt.phase = .daa ∧ Takes .daaSr (hears .daa .daaSr []) ∧ Takes (.da 0x7D) (hears .daa (.da 0x7D) []) := by
  unfold Takes; decide
theorem witness_EntdaaEnthdr_hdr :
    let s := { tgt with tgt.phase := .ignore, tgt.ignstop := true, tgt.ccccur := 0x27 }
    s.tgt.phase = .ignore ∧ s.tgt.ignstop = true ∧ s.tgt.ccccur = 0x20 + (7 : BitVec 3).setWidth 8 := by decide
theorem witness_FrameEvents :
    tgt.tgt.handoff = false ∧ { tgt with tgt.handoff := true }.tgt.handoff = true ∧ tgt.ctl.cmdp = false ∧
      (asks 0x33 .ack).ctl.cmdp = true ∧ (asks 0x33 .ack).ctl.pendop = 0x33 ∧ (asks 0x34 .ack).ctl.pendop = 0x34 ∧
      (asks 0x31 .ack).ctl.pendop ∉ ([0x32, 0x33, 0x34] : List Byte) := by decide
theorem witness_FrameEvents_ignored :
    let s := { tgt with tgt.phase := .ignore, tgt.ignstop := true }
    s.tgt.phase = .ignore ∧ s.tgt.ignstop = true ∧ { s with tgt.ignstop := false }.tgt.ignstop = false ∧
      tgt.tgt.phase ∉ ([.ignore, .privW, .privR, .cccData, .directW, .direct] : List TgtPhase) ∧
      (target .direct 0xDF .rstart).tgt.phase = .direct ∧ (target .direct 0xDF .rstart).tgt.ccccur.toNat = 0xDF ∧
      ¬0x20 ≤ s.tgt.ccccur.toNat := by decide

end Sys2Proof.Tests
end

section
/-! SUPPORT. Every step keeps every invariant of Safety.lean but the lifecycle: one lemma per operation, in the model's
order, up to `exec_keeps` for the instructions and `step_keeps` for the agents' turns. -/

namespace Sys2Proof.Machine

/-! ## Updates that the invariants of `Keeps` do not see -/

section
variable {s t u : State}

/-- What the invariants of `Keeps` read, but for MODE and LISTEN. -/
def frameKey (s : State) : (Memory × Nat × Nat × Nat × Nat × Nat × Nat) × (Word × Word × Word) ×
    (Addr7 × Bool × Vector BdtEntry 4) × Params × Fifos × List Byte :=
  ((s.mem, pointerKey s), (s.rep.isr, s.rep.ier, s.rep.noten), (s.cfg.da, s.cfg.dav, s.cfg.bdt), s.env.params, s.fifo,
    s.tgt.cccbuf)

/-- Everything that the invariants of `Keeps` read. -/
def invariantKey (s : State) := ((s.ctl.mode, s.ctl.listen), frameKey s)

theorem Keeps.of_key (h : invariantKey t = invariantKey s) : Keeps s t := by
  simp only [invariantKey, frameKey, Prod.mk.injEq] at h
  obtain ⟨⟨hmode, hlisten⟩, ⟨hmem, hptr⟩, ⟨hisr, hier, hnoten⟩, ⟨hda, hdav, hbdt⟩, hparams, hfifo, hbuf⟩ := h
  exact .of_quiet (by rw [hmem, hptr]) (by rw [hmode, hlisten]) (by rw [hisr, hier, hnoten]) (by rw [hda, hdav, hbdt])
    hparams hfifo hbuf

/-- An unseen update before an operation. -/
theorem Keeps.after (h : Keeps t u) (hk : invariantKey t = invariantKey s) : Keeps s u := (Keeps.of_key hk).trans h

/-- An unseen update after an operation. -/
theorem Keeps.before (h : Keeps s t) (hk : invariantKey u = invariantKey t) : Keeps s u := h.trans (.of_key hk)

theorem Keeps.ite {c : Prop} [Decidable c] (ht : Keeps s t) (hu : Keeps s u) : Keeps s (if c then t else u) := by
  split
  · exact ht
  · exact hu

theorem Keeps.ite_of {c : Prop} [Decidable c] (ht : c → Keeps s t) (hu : ¬c → Keeps s u) :
    Keeps s (if c then t else u) := by
  split
  · exact ht ‹c›
  · exact hu ‹¬c›

/-- A change of MODE is allowed before LISTEN is recomputed. -/
theorem Keeps.relisten (h : Keeps t u) (hk : frameKey t = frameKey s) : Keeps s (relisten u) := by
  have hs : Keeps s { t with ctl.mode := s.ctl.mode, ctl.listen := s.ctl.listen } :=
    .of_key (congrArg (Prod.mk (s.ctl.mode, s.ctl.listen)) hk)
  exact ⟨fun m => h.memory (hs.memory m), fun p => h.pointers (hs.pointers p), fun _ => listenOk_relisten u,
    fun a => h.addresses (hs.addresses a), fun r => h.reserved (hs.reserved r),
    fun l c => h.capacity (hs.params ▸ l) (hs.capacity l c), h.params.trans hs.params⟩

/-- CCCBUF changes to at most eight bytes. -/
theorem Keeps.of_cccbuf (hb : t.tgt.cccbuf.length ≤ 8)
    (hk : invariantKey { t with tgt.cccbuf := s.tgt.cccbuf } = invariantKey s) : Keeps s t :=
  (Keeps.of_key hk).trans (.of_fields rfl rfl rfl rfl rfl le_rfl le_rfl le_rfl le_rfl (hb.trans (le_max_left _ _)))

/-- TXFIFO is flushed. -/
theorem Keeps.of_txFlushed (hf : t.fifo = { s.fifo with txfifo := [] })
    (hk : invariantKey { t with fifo := s.fifo } = invariantKey s) : Keeps s t :=
  (Keeps.of_key hk).trans (.of_fields rfl rfl rfl rfl rfl (by rw [hf]) (by rw [hf]) (by rw [hf]; exact Nat.zero_le _)
    (by rw [hf]) (le_max_right _ _))

theorem addrOf_lt (s : State) (v : Word) : addrOf s v < 2 ^ s.env.params.addrW := byteAt_lt s _ _

/-- A FIFO below its depth takes one more element. -/
theorem length_push_le {α : Type} {l : List α} {n : Nat} (x : α) (h : l.length < n) : (l ++ [x]).length ≤ n := by
  simpa using h

/-- The four FIFOs flushed. -/
theorem CapacityOk.of_flushed (hf : t.fifo = Fifos.reset) (hb : t.tgt.cccbuf = s.tgt.cccbuf) (h : CapacityOk s) :
    CapacityOk t := by
  obtain ⟨-, -, -, -, hbuf⟩ := h
  unfold CapacityOk
  rw [hf, hb]
  exact ⟨Nat.zero_le _, Nat.zero_le _, Nat.zero_le _, Nat.zero_le _, hbuf⟩

end

/-! ## Results of a step -/

/-- Every next state of the result keeps the invariants. -/
def ResultKeeps (s : State) (r : Result) : Prop := ∀ t, r = .next t → Keeps s t

section
variable {s t : State} {r r' : Result}

theorem ResultKeeps.next (h : Keeps s t) : ResultKeeps s (.next t) := by
  rintro _ ⟨⟩
  exact h

theorem ResultKeeps.refused (c : Refusal) : ResultKeeps s (.refused c) := by
  rintro _ ⟨⟩

theorem ResultKeeps.after (h : ResultKeeps t r) (hk : invariantKey t = invariantKey s) : ResultKeeps s r :=
  fun u hu => (h u hu).after hk

theorem ResultKeeps.ite {c : Prop} [Decidable c] (h : ResultKeeps s r) (h' : ResultKeeps s r') :
    ResultKeeps s (if c then r else r') := by
  split
  · exact h
  · exact h'

end

/-! ## Shared operations -/

theorem longCommand_keeps {g : Option Code} {ok : Bool} {act : State → State} {s : State} (h : Keeps s (act s)) :
    Keeps s (longCommand g ok act s) := by
  rcases longCommand_cases g ok act s with ⟨c, e⟩ | ⟨-, -, e⟩
  · rw [e]; exact reject_keeps c s
  · rw [e]; exact h

theorem addressesOk_reset : AddressesOk State.reset := ⟨by decide, by decide⟩

theorem reservedOk_reset : ReservedOk State.reset := by
  unfold ReservedOk
  decide

/-- The block at its reset values: NOTEN is 0, so LISTEN = 0 is right in any mode. -/
theorem resetBlock_with_keeps {c : Control} (hc : c.listen = false) (s : State) :
    Keeps s { resetBlock s with ctl := c } := by
  have hpos := Nat.two_pow_pos s.env.params.addrW
  refine ⟨id, fun _ => ⟨hpos, hpos, hpos, hpos, hpos, hpos⟩, fun _ => ?_, fun _ => addressesOk_reset,
    fun _ => reservedOk_reset,
    fun _ _ => ⟨Nat.zero_le _, Nat.zero_le _, Nat.zero_le _, Nat.zero_le _, Nat.zero_le _⟩, rfl⟩
  simp [ListenOk, resetBlock, State.reset, Report.reset, hc]

theorem resetBlock_keeps (s : State) : Keeps s (resetBlock s) := resetBlock_with_keeps (c := Control.reset) rfl s

/-- The end of a command: STATE is IDLE, a flag is set, RESULT reports. -/
theorem endCommand_keeps (c : Code) (aux : BitVec 16) (f : Flag) (s : State) :
    Keeps s (finish c aux (flag f (setLife .idle s))) :=
  ((setLife_keeps _ s).trans (flag_keeps _ _)).trans (finish_keeps _ _ _)

theorem popTx_keeps (s : State) : Keeps s (popTx s) :=
  .of_fields rfl rfl rfl rfl rfl le_rfl le_rfl (by simp [popTx]) le_rfl (le_max_right _ _)

theorem nextTxByte_keeps {k : Byte → State → State} (hk : ∀ b u, Keeps u (k b u)) (s : State) :
    Keeps s (nextTxByte k s) := by
  unfold nextTxByte
  split
  · exact hk _ s
  · exact .ite (.refl s) (raiseError_keeps _ _)

/-- A received byte is pushed only where RXFIFO has room for it. -/
theorem storeRxByte_keeps (b : Byte) (more : Bool) {k : State → State} (hk : ∀ u, Keeps u (k u)) (s : State) :
    Keeps s (storeRxByte b more k s) := by
  unfold storeRxByte
  split
  · exact .ite (.of_key rfl) (raiseError_keeps _ _)
  · next hfull =>
    have hroom : s.fifo.rxfifo.length < s.env.params.rxfifoDepth := by simpa [rxfifoFull] using hfull
    refine Keeps.trans ?_ (hk _)
    exact ⟨id, id, id, id, id, fun _ ⟨hc, hs, ht, _, hb⟩ => ⟨hc, hs, ht, length_push_le b hroom, hb⟩, rfl⟩

/-! ## The encoder's commands -/

theorem endWrites_keeps (ws : List (Nat × List Byte)) (s : State) : Keeps s (endWrites (memWrites s ws)) :=
  (memWrites_keeps ws s).trans (presult_keeps _ _)

theorem build_keeps (ccc : Bool) (sub : Byte) (s : State) : Keeps s (build ccc sub s) := by
  unfold build
  split
  · exact presult_keeps _ _
  · exact endWrites_keeps _ _

/-! ## Target path -/

theorem tgtTxAccept_keeps (st : Strat) (s : State) : Keeps s (tgtTxAccept st s) :=
  (accept_keeps opTgtTx st s.arg.arg2 s).trans
    ⟨id, fun ⟨hctrl, _, hrx, hctx, hdaa, hnbuf⟩ => ⟨hctrl, addrOf_lt _ _, hrx, hctx, hdaa, hnbuf⟩, id, id, id,
      fun _ => .of_flushed rfl rfl, rfl⟩

theorem tgtRxAccept_keeps (st : Strat) (s : State) : Keeps s (tgtRxAccept st s) :=
  (accept_keeps opTgtRx st s.arg.arg2 s).trans
    ⟨id, fun ⟨hctrl, htx, _, hctx, hdaa, hnbuf⟩ => ⟨hctrl, htx, addrOf_lt _ _, hctx, hdaa, hnbuf⟩, id, id, id,
      fun _ => .of_flushed rfl rfl, rfl⟩

theorem ibiAccept_keeps (st : Strat) (s : State) : Keeps s (ibiAccept st s) :=
  (accept_keeps opIbiReq st s.arg.arg2 s).trans
    ⟨id, fun ⟨hctrl, _, hrx, hctx, hdaa, hnbuf⟩ => ⟨hctrl, addrOf_lt _ _, hrx, hctx, hdaa, hnbuf⟩, id, id, id,
      fun _ => .of_flushed rfl rfl, rfl⟩

theorem endRead_keeps (s : State) : Keeps s (endRead s) := .of_txFlushed rfl rfl

theorem endMessage_keeps (s : State) : Keeps s (endMessage s) := by
  unfold endMessage
  cases s.tgt.phase with
  | privW => exact .of_key rfl
  | privR => exact endRead_keeps s
  | _ => exact .refl s

theorem closeStep_keeps (s : State) : Keeps s (closeStep s) :=
  .ite ((endCommand_keeps _ _ _ _).after rfl) (.refl s)

theorem raiseTarget_keeps (k : ErrCode) (s : State) : Keeps s (raiseTarget k s) := by
  refine Keeps.trans ?_ (raiseError_keeps _ _)
  exact .ite (.of_key rfl) (.refl s)

theorem privReadStep_keeps (s : State) : Keeps s (privReadStep s) := by
  unfold privReadStep
  refine .ite ?_ (.refl s)
  split
  · exact .refl s
  · refine phy_keeps fun answer => ?_
    cases answer with
    | ok => exact (popTx_keeps _).trans (.ite ((endRead_keeps _).after rfl) (.of_key rfl))
    | stopped => exact endRead_keeps _
    | err k => exact raiseTarget_keeps _ _
    | _ => exact .refl _

/-- A byte written to this target is pushed only where RXFIFO has room for it. -/
theorem privWriteByte_keeps (b : Byte) {s : State} (h : s.cnt.datacnt ≠ writeLimit s → rxfifoFull s = false) :
    Keeps s (privWriteByte b s) := by
  unfold privWriteByte
  split
  · exact raiseError_keeps _ _
  · next hlim =>
    have hroom : s.fifo.rxfifo.length < s.env.params.rxfifoDepth := by simpa [rxfifoFull] using h hlim
    exact ⟨id, id, id, id, id, fun _ ⟨hc, hs, ht, _, hb⟩ => ⟨hc, hs, ht, length_push_le b hroom, hb⟩, rfl⟩

theorem requestDone_keeps (c : Code) (aux : BitVec 16) (s : State) : Keeps s (requestDone c aux s) :=
  endCommand_keeps c aux .treqDone s

theorem treqStep_keeps {a : Addr7} {rnw granted : Bool} {c : Code} {acked : State → State}
    (h : ∀ u, Keeps u (acked u)) (s : State) : Keeps s (treqStep a rnw granted c acked s) := by
  unfold treqStep
  refine .ite (phy_keeps fun answer => ?_) (requestDone_keeps _ _ s)
  cases answer with
  | ack => exact h _
  | nack => exact requestDone_keeps _ _ _
  | err k => exact raiseTarget_keeps _ _
  | _ => exact .refl _

theorem ibiEnd_keeps (s : State) : Keeps s (ibiEnd s) :=
  have hflush : Keeps s { s with tgt.trq := .none, cnt.txrem := 0, fifo.txfifo := [] } := .of_txFlushed rfl rfl
  (hflush.trans ((setLife_keeps _ _).trans (notify_keeps _ _))).trans ((flag_keeps _ _).trans (finish_keeps _ _ _))

theorem ibiDataStep_keeps (s : State) : Keeps s (ibiDataStep s) := by
  unfold ibiDataStep
  split
  · exact .refl s
  · refine phy_keeps fun answer => ?_
    cases answer with
    | ok => exact (popTx_keeps _).trans (.ite ((ibiEnd_keeps _).after rfl) (.of_key rfl))
    | stopped => exact ibiEnd_keeps _
    | err k => exact raiseTarget_keeps _ _
    | _ => exact .refl _

theorem ibiAcked_keeps (s : State) : Keeps s (ibiAcked s) := .ite (ibiEnd_keeps s) (.of_key rfl)

theorem targetRequestStep_keeps (s : State) : Keeps s (targetRequestStep s) := by
  unfold targetRequestStep
  cases s.tgt.trq with
  | ibiData => exact .ite (ibiDataStep_keeps s) (.refl s)
  | hjWaitDaa => exact .refl s
  | crWaitGetacccr => exact .refl s
  | none =>
    exact .ite (.refl s) (.ite (treqStep_keeps (fun _ => .of_key (by rfl)) s)
      (.ite (treqStep_keeps (fun _ => .of_key (by rfl)) s) (.ite (treqStep_keeps ibiAcked_keeps s) (.refl s))))

theorem hotJoinAssigned_keeps (s : State) : Keeps s (hotJoinAssigned s) :=
  .ite ((requestDone_keeps _ _ _).after rfl) (.refl s)

theorem hotJoinDisabled_keeps (s : State) : Keeps s (hotJoinDisabled s) :=
  .ite ((requestDone_keeps _ _ _).after rfl) (.refl s)

theorem acquireRole_keeps (s : State) : Keeps s (acquireRole s) :=
  Keeps.trans (Keeps.relisten (notify_keeps .nGetacccr _) (by rfl))
    (.ite (requestDone_keeps _ _ _)
      (.ite ((flagRequest_keeps _).trans ((setLife_keeps _ _).trans (finish_keeps _ _ _))) (.refl _)))

theorem frameEvent_keeps (e : PhyEvent) (s : State) : Keeps s (frameEvent e s) := by
  unfold frameEvent
  cases e with
  | start => exact .of_key rfl
  | rstart => exact .of_key rfl
  | stop => exact .ite ((acquireRole_keeps _).after rfl) (.of_key rfl)
  | _ => exact .refl s

theorem ackAddr_keeps (p : TgtPhase) (s : State) : Keeps s (ackAddr p s) := .of_key rfl

theorem nackAddr_keeps (s : State) : Keeps s (nackAddr s) := .of_key rfl

theorem detectIgnore_keeps (e : ErrCode) (s : State) : Keeps s (toIgnore (detect e s)) := (detect_keeps e s).before rfl

theorem targetError_keeps (k : ErrCode) (s : State) : Keeps s (targetError k s) :=
  .ite ((raiseError_keeps _ _).after rfl) (.after (.before (latchFlag_keeps k { s with tst.perr := true }) rfl) rfl)

/-! ## CCCs in target role -/

section
variable {effect sent : State → State} {ready : State → Bool} {response : State → List Byte}

/-- A CCC code empties CCCBUF. -/
theorem receiveCode_keeps (code : Byte) (p : TgtPhase) (s : State) : Keeps s (receiveCode code p s) :=
  .of_cccbuf (Nat.zero_le _) rfl

theorem definingByte_keeps (b : Byte) (s : State) : Keeps s (definingByte b s) :=
  .ite (detectIgnore_keeps _ s) (.of_key rfl)

/-- CCCBUF takes a byte only below eight. -/
theorem collect_keeps (b : Byte) (s : State) : Keeps s (collect b s) := by
  unfold collect
  split
  · exact detectIgnore_keeps _ s
  · next h =>
    have hroom : s.tgt.cccbuf.length < 8 := Nat.lt_of_not_le h
    exact ⟨id, id, id, id, id, fun _ ⟨hc, hs, ht, hr, _⟩ => ⟨hc, hs, ht, hr, length_push_le b hroom⟩, rfl⟩

theorem endData_keeps (broadcast : Bool) (he : ∀ u, Keeps u (effect u)) (e : PhyEvent) (s : State) :
    Keeps s (endData broadcast effect e s) := by
  refine (he s).trans (.trans ?_ (frameEvent_keeps e _))
  exact .ite (.of_key rfl) (.refl _)

theorem addressed_keeps {dirOk r : Bool} {accepted : State → State} {s : State} (h : Keeps s (accepted s)) :
    Keeps s (addressed dirOk r accepted s) :=
  .ite ((detect_keeps _ s).trans (nackAddr_keeps _)) (.ite (nackAddr_keeps s) h)

theorem writeAccepted_keeps (s : State) : Keeps s (writeAccepted s) :=
  .of_cccbuf (Nat.zero_le _) rfl

/-- A response of at most eight bytes fits CCCBUF. -/
theorem readAccepted_keeps {s : State} (h : (response s).length ≤ 8) : Keeps s (readAccepted response s) :=
  .of_cccbuf h rfl

theorem sendResponse_keeps (hs : ∀ u, Keeps u (sent u)) (s : State) : Keeps s (sendResponse sent s) := by
  unfold sendResponse
  refine phy_keeps fun answer => ?_
  cases answer with
  | ok => exact .ite ((hs _).after rfl) (.of_key rfl)
  | stopped => exact .of_key rfl
  | err k => exact targetError_keeps _ _
  | _ => exact .refl _

theorem broadcastCcc_keeps (code : Byte) (he : ∀ u, Keeps u (effect u)) (s : State) :
    Keeps s (broadcastCcc code effect s) := by
  unfold broadcastCcc
  split
  · exact receiveCode_keeps _ _ s
  · exact collect_keeps _ s
  · exact endData_keeps _ he _ s
  · exact endData_keeps _ he _ s
  · exact endData_keeps _ he _ s
  · exact .refl s

theorem directWrite_keeps (code : Byte) (he : ∀ u, Keeps u (effect u)) (s : State) :
    Keeps s (directWrite code ready effect s) := by
  unfold directWrite
  split
  · exact receiveCode_keeps _ _ s
  · exact definingByte_keeps _ s
  · exact addressed_keeps (writeAccepted_keeps s)
  · exact collect_keeps _ s
  · exact endData_keeps _ he _ s
  · exact endData_keeps _ he _ s
  · exact endData_keeps _ he _ s
  · exact .refl s

theorem directRead_keeps (code : Byte) (hr : ∀ u, (response u).length ≤ 8) (hs : ∀ u, Keeps u (sent u)) (s : State) :
    Keeps s (directRead code ready response sent s) := by
  unfold directRead
  split
  · exact receiveCode_keeps _ _ s
  · exact definingByte_keeps _ s
  · exact addressed_keeps (readAccepted_keeps (hr s))
  · exact sendResponse_keeps hs s
  · exact .refl s

end

/-! ### Effects -/

theorem withBytes_keeps (n : Nat) {k : List Byte → State → State} (hk : ∀ bs u, Keeps u (k bs u)) (s : State) :
    Keeps s (withBytes n k s) :=
  .ite (hk _ s) (detect_keeps _ s)

theorem enecEffect_keeps (s : State) : Keeps s (enecEffect s) :=
  withBytes_keeps 1 (fun _ _ => (notify_keeps _ _).after (by rfl)) s

theorem disecEffect_keeps (s : State) : Keeps s (disecEffect s) :=
  withBytes_keeps 1 (fun _ _ => ((notify_keeps _ _).trans (hotJoinDisabled_keeps _)).after (by rfl)) s

theorem entasEffect_keeps (n : BitVec 2) (s : State) : Keeps s (entasEffect n s) :=
  withBytes_keeps 0 (fun _ _ => (notify_keeps _ _).after (by rfl)) s

/-- OWNADDR may change to a valid dynamic address, or to one that is not in force. -/
theorem setOwnDa_keeps {a : Addr7} {v : Bool} (h : v = true → validDa a = true) (s : State) :
    Keeps s { s with cfg.da := a, cfg.dav := v } :=
  ⟨id, id, id, fun ⟨_, hbdt⟩ => ⟨h, hbdt⟩, id, fun _ => id, rfl⟩

theorem rstdaaEffect_keeps (s : State) : Keeps s (rstdaaEffect s) :=
  withBytes_keeps 0 (fun _ u => (setOwnDa_keeps (a := 0) (v := false) nofun u).trans (notify_keeps _ _)) s

theorem setdasaEffect_keeps (s : State) : Keeps s (setdasaEffect s) :=
  withBytes_keeps 1 (fun _ u => .ite_of
    (fun h => (setOwnDa_keeps (fun _ => h) u).trans ((notify_keeps _ _).trans (hotJoinAssigned_keeps _)))
    (fun _ => latchFlag_keeps _ u)) s

theorem setnewdaEffect_keeps (s : State) : Keeps s (setnewdaEffect s) :=
  withBytes_keeps 1 (fun _ u => .ite_of
    (fun h => (setOwnDa_keeps (v := u.cfg.dav) (fun _ => h) u).trans (notify_keeps _ _))
    (fun _ => latchFlag_keeps _ u)) s

theorem setmwlEffect_keeps (s : State) : Keeps s (setmwlEffect s) :=
  withBytes_keeps 2 (fun _ _ => (notify_keeps _ _).after (by rfl)) s

theorem setmrlEffect_keeps (s : State) : Keeps s (setmrlEffect s) :=
  .ite ((notify_keeps _ _).after rfl) (detect_keeps _ s)

theorem storeRstact_keeps (d : Byte) (s : State) : Keeps s (storeRstact d s) := (notify_keeps _ _).after rfl

theorem rstactEffect_keeps (s : State) : Keeps s (rstactEffect s) := withBytes_keeps 1 (fun _ => storeRstact_keeps _) s

theorem rstactDirectEffect_keeps (s : State) : Keeps s (rstactDirectEffect s) :=
  withBytes_keeps 0 (fun _ u => .ite (storeRstact_keeps _ u) (detect_keeps _ u)) s

theorem getSent_keeps (s : State) : Keeps s (getSent s) := notify_keeps _ s

theorem getstatusSent_keeps (s : State) : Keeps s (getstatusSent s) :=
  ((getSent_keeps s).trans (notify_keeps .nGetStatus _)).before rfl

theorem acccrSent_keeps (s : State) : Keeps s (acccrSent s) := (getSent_keeps s).before rfl

/-! ### Lists and assignment -/

theorem listCode_keeps (code : Byte) (s : State) : Keeps s (listCode code s) :=
  (receiveCode_keeps code .cccData s).trans ((notify_keeps _ _).after rfl)

/-- A list byte is stored at NBUFPTR, which goes on within the address space. -/
theorem listByte_keeps (b : Byte) (s : State) : Keeps s (listByte b s) := by
  unfold listByte
  split
  · exact .refl s
  split
  · exact .ite (.refl s) ((latchFlag_keeps _ _).after rfl)
  split
  · exact latchFlag_keeps _ s
  · next t ht =>
    have hw := memWrite_keeps ht
    refine hw.trans ⟨id, fun ⟨hctrl, htx, hrx, hctx, hdaa, _⟩ => ⟨hctrl, htx, hrx, hctx, hdaa, ?_⟩, id, id, id,
      fun _ => id, rfl⟩
    exact lt_of_lt_of_eq (byteAt_lt s _ _) (by rw [hw.params])

theorem listCcc_keeps (code : Byte) (s : State) : Keeps s (listCcc code s) := by
  unfold listCcc
  split
  · exact listCode_keeps _ s
  · exact listByte_keeps _ s
  · exact endData_keeps _ Keeps.refl _ s
  · exact endData_keeps _ Keeps.refl _ s
  · exact endData_keeps _ Keeps.refl _ s
  · exact .refl s

theorem entdaaCode_keeps (s : State) : Keeps s (entdaaCode s) :=
  .ite (.of_cccbuf (Nat.zero_le _) rfl) (receiveCode_keeps _ _ s)

theorem entdaaAddress_keeps (a : Addr7) (s : State) : Keeps s (entdaaAddress a s) :=
  .ite_of
    (fun h => (setOwnDa_keeps (fun _ => h) s).trans ((notify_keeps _ _).trans ((hotJoinAssigned_keeps _).before rfl)))
    (fun _ => latchFlag_keeps _ s)

theorem execEntdaa_keeps (s : State) : ResultKeeps s (execEntdaa s) := by
  refine .next ?_
  split
  · exact entdaaCode_keeps s
  · exact .of_key rfl
  · exact entdaaAddress_keeps _ s
  · exact .refl s

theorem execRstactD_keeps (s : State) : ResultKeeps s (execRstactD s) := by
  refine .next ?_
  split
  · exact receiveCode_keeps _ _ s
  · exact definingByte_keeps _ s
  · exact readAccepted_keeps (by decide : ([0#8] : List Byte).length ≤ 8)
  · exact writeAccepted_keeps s
  · exact collect_keeps _ s
  · exact endData_keeps _ rstactDirectEffect_keeps _ s
  · exact endData_keeps _ rstactDirectEffect_keeps _ s
  · exact endData_keeps _ rstactDirectEffect_keeps _ s
  · exact sendResponse_keeps (notify_keeps _) s
  · exact .refl s

theorem execEnthdr_keeps (hdr : BitVec 3) (s : State) : ResultKeeps s (execEnthdr hdr s) := by
  refine .next ?_
  split
  · exact .of_cccbuf (Nat.zero_le _) rfl
  · exact .refl s

theorem respMrl_length_le (s : State) : (respMrl s).length ≤ 8 := by
  unfold respMrl be16
  split <;> simp

theorem unsupportedCode_keeps (c : Byte) (s : State) : Keeps s (unsupportedCode c s) :=
  .ite (receiveCode_keeps _ _ s) (.of_cccbuf (Nat.zero_le _) rfl)

theorem undefinedCode_keeps (c : Byte) (s : State) : Keeps s (undefinedCode c s) :=
  (detect_keeps .te1 s).trans (.of_cccbuf (Nat.zero_le _) rfl)

/-! ## Target requests in controller role -/

theorem requestError_keeps (k : ErrCode) (s : State) : Keeps s (requestError k s) :=
  .ite (raiseError_keeps k s) (((needRecovery_keeps k s).trans (latchFlag_keeps k _)).before rfl)

theorem hotJoinAck_keeps (s : State) : Keeps s (hotJoinAck s) :=
  .ite (phy_keeps fun _ => .of_key rfl) (phy_keeps fun _ => .of_key rfl)

theorem ibiAfterAck_keeps (i : Fin 4) (s : State) : Keeps s (ibiAfterAck i s) := .ite (.of_key rfl) (.of_key rfl)

theorem ibiAck_keeps (a : Addr7) (s : State) : Keeps s (ibiAck a s) := by
  unfold ibiAck
  split
  · exact phy_keeps fun _ => .of_key rfl
  · exact phy_keeps fun _ => (ibiAfterAck_keeps _ _).after rfl

theorem roleAck_keeps (a : Addr7) (s : State) : Keeps s (roleAck a s) := by
  unfold roleAck
  split
  · exact phy_keeps fun _ => .of_key rfl
  · exact phy_keeps fun _ => .of_key rfl

theorem requestAck_keeps (a : Addr7) (rnw : Bool) (s : State) : Keeps s (requestAck a rnw s) :=
  .ite (hotJoinAck_keeps s) (.ite (ibiAck_keeps a s) (roleAck_keeps a s))

theorem ibiByte_keeps (i : Fin 4) (k : Nat) (s : State) : Keeps s (ibiByte i k s) := by
  refine phy_keeps fun answer => ?_
  cases answer with
  | byte b more => exact .ite (.of_key rfl) (.of_key rfl)
  | err j => exact requestError_keeps _ _
  | _ => exact .refl _

theorem suspendFor_keeps (i : Fin 4) (s : State) : Keeps s (suspendFor i s) := .ite (.of_key rfl) (.refl s)

theorem requestEnd_keeps (n : RequestNote) (s : State) : Keeps s (requestEnd n s) := by
  cases n with
  | none => exact .refl s
  | ibi i => exact (suspendFor_keeps i s).trans (notify_keeps _ _)
  | crreq => exact notify_keeps _ s
  | hj => exact notify_keeps _ s

theorem requestStep_keeps (s : State) : Keeps s (requestStep s) := by
  unfold requestStep
  cases s.work.request with
  | idle => exact .refl s
  | ack a rnw => exact requestAck_keeps _ _ s
  | data i k => exact ibiByte_keeps _ _ s
  | stop n => exact phy_keeps fun _ => (requestEnd_keeps _ _).after rfl

/-! ## The sequencer -/

/-- START loads its pointers from the context, each within the address space. -/
theorem startAccept_keeps (st : Strat) (c : List Byte) (s : State) : Keeps s (startAccept st c s) :=
  ((accept_keeps opStart st s.arg.arg1 s).trans (drainAll_keeps _)).trans
    ⟨id, fun ⟨_, _, _, _, hdaa, hnbuf⟩ =>
      ⟨addrOf_lt _ _, addrOf_lt _ _, addrOf_lt _ _, addrOf_lt _ _, hdaa, hnbuf⟩, id, id, id, fun _ => id, rfl⟩

theorem execStart_keeps (st : Strat) (sub : Byte) (s : State) : ResultKeeps s (execStart st sub s) := by
  refine .next ?_
  split
  · exact reject_keeps _ s
  split
  · exact reject_keeps _ s
  · exact startAccept_keeps st _ s

theorem fetchWord_keeps (w : Word) (legal : Bool) (s : State) : Keeps s (fetchWord w legal s) := by
  have hpop : Keeps s { s with fifo.cfifo := s.fifo.cfifo.tail } :=
    .of_fields rfl rfl rfl rfl rfl (by simp) le_rfl le_rfl le_rfl (le_max_right _ _)
  exact .ite (.refl s) (.ite (hpop.before rfl) (hpop.trans ((raiseError_keeps _ _).after rfl)))

theorem goto_keeps (m : Micro) (s : State) : Keeps s (goto m s) := .of_key rfl

theorem messageStart_keeps (next : Bool → Micro) (s : State) : Keeps s (messageStart next s) := by
  unfold messageStart
  refine .ite (phy_keeps fun _ => .of_key rfl) (phy_keeps fun answer => ?_)
  cases answer with
  | arb a rnw => exact .of_key rfl
  | _ => exact .of_key rfl

section
variable {k done : State → State}

theorem sendHeader_keeps (hk : ∀ u, Keeps u (k u)) (s : State) : Keeps s (sendHeader k s) := by
  unfold sendHeader
  refine phy_keeps fun answer => ?_
  cases answer with
  | ack => exact hk _
  | nack => exact raiseError_keeps _ _
  | err j => exact raiseError_keeps _ _
  | _ => exact .refl _

theorem sendAddress_keeps (a : Addr7) (rnw : Bool) (hk : ∀ u, Keeps u (k u)) (s : State) :
    Keeps s (sendAddress a rnw k s) := by
  unfold sendAddress
  refine phy_keeps fun answer => ?_
  cases answer with
  | ack => exact hk _
  | nack => exact (raiseError_keeps _ _).after rfl
  | err j => exact raiseError_keeps _ _
  | _ => exact .refl _

theorem sendByte_keeps (b : Byte) (hk : ∀ u, Keeps u (k u)) (s : State) : Keeps s (sendByte b k s) := by
  unfold sendByte
  refine phy_keeps fun answer => ?_
  cases answer with
  | ok => exact hk _
  | err j => exact raiseError_keeps _ _
  | _ => exact .refl _

theorem toData_keeps (n : BitVec 16) (hd : ∀ u, Keeps u (done u)) (s : State) : Keeps s (toData n done s) :=
  .ite (hd s) (.of_key rfl)

theorem afterByte_keeps (n : BitVec 16) (hd : ∀ u, Keeps u (done u)) (s : State) : Keeps s (afterByte n done s) :=
  .ite (hd s) (.refl s)

theorem writeData_keeps (i2c : Bool) (n : BitVec 16) (hd : ∀ u, Keeps u (done u)) (s : State) :
    Keeps s (writeData i2c n done s) := by
  refine nextTxByte_keeps (fun b u => phy_keeps fun answer => ?_) s
  cases answer with
  | ok => exact (popTx_keeps _).trans ((afterByte_keeps n hd _).after rfl)
  | nack => exact (raiseError_keeps _ _).after rfl
  | err j => exact raiseError_keeps _ _
  | _ => exact .refl _

theorem readStored_keeps (i2c : Bool) (n : BitVec 16) (more : Bool) (hd : ∀ u, Keeps u (done u)) (s : State) :
    Keeps s (readStored i2c n more done s) :=
  .ite ((hd _).after rfl) (.ite (.of_key rfl) ((hd _).after rfl))

theorem readData_keeps (i2c : Bool) (n : BitVec 16) (hd : ∀ u, Keeps u (done u)) (s : State) :
    Keeps s (readData i2c n done s) := by
  unfold readData
  split
  · exact storeRxByte_keeps _ _ (readStored_keeps i2c n _ hd) s
  · refine phy_keeps fun answer => ?_
    cases answer with
    | byte b more => exact storeRxByte_keeps _ _ (readStored_keeps i2c n _ hd) _
    | err j => exact raiseError_keeps _ _
    | _ => exact .refl _

end

theorem messageDone_keeps (s : State) : Keeps s (messageDone s) := .of_key rfl

theorem roleToTarget_keeps (s : State) : Keeps s (roleToTarget s) := .ite ((Keeps.refl _).relisten rfl) (.refl s)

theorem completeTransfer_keeps (s : State) : Keeps s (completeTransfer s) := by
  have hflush : Keeps s { s with fifo.txfifo := [], fifo.cfifo := [] } :=
    .of_fields rfl rfl rfl rfl rfl (Nat.zero_le _) le_rfl (Nat.zero_le _) le_rfl (le_max_right _ _)
  refine hflush.trans (.trans ?_ (roleToTarget_keeps _))
  exact (endCommand_keeps _ _ _ _).after rfl

theorem afterWord_keeps (s : State) : Keeps s (afterWord s) :=
  .ite (.ite (completeTransfer_keeps s) (.of_key rfl)) (.of_key rfl)

/-- A status word is pushed only where SFIFO has room. -/
theorem descriptorDone_keeps {s : State} (h : s.cfg.sfen = true → s.fifo.sfifo.length < s.env.params.sfifoDepth) :
    Keeps s (descriptorDone s) := by
  refine ⟨id, id, id, id, id, fun _ ⟨hc, hs, ht, hr, hb⟩ => ⟨hc, ?_, ht, hr, hb⟩, rfl⟩
  show (if s.cfg.sfen then s.fifo.sfifo ++ [statusOfCur s] else s.fifo.sfifo).length ≤ _
  split
  · next hen => exact length_push_le _ (h hen)
  · exact hs

theorem endWord_keeps (mend : Bool) (s : State) : Keeps s (endWord mend s) := by
  refine .ite (.ite (completeTransfer_keeps s) (.refl s)) (.ite_of (fun _ => raiseError_keeps _ s) fun hroom => ?_)
  have hpush : s.cfg.sfen = true → s.fifo.sfifo.length < s.env.params.sfifoDepth := by
    simpa [sfifoFull] using hroom
  refine .ite (phy_keeps fun _ => ?_) ((descriptorDone_keeps hpush).trans (afterWord_keeps _))
  exact (descriptorDone_keeps (s := drive (.req .stop) s) hpush).trans ((afterWord_keeps _).after rfl)

theorem cccSent_keeps (code : Byte) (s : State) : Keeps s (cccSent code s) := .ite (.of_key rfl) (messageDone_keeps s)

theorem cccAddr_keeps (code : Byte) (n : BitVec 16) (s : State) : Keeps s (cccAddr code n s) := by
  unfold cccAddr
  cases s.work.micro with
  | start => exact messageStart_keeps _ s
  | hdr => exact sendHeader_keeps (goto_keeps _) s
  | code => exact sendByte_keeps _ (fun _ => (toData_keeps n (cccSent_keeps code) _).after (by rfl)) s
  | _ => exact .refl s

theorem execCwCcc_keeps (mend arb : Bool) (code : Byte) (n : BitVec 16) (s : State) :
    ResultKeeps s (execCwCcc mend arb code n s) := by
  refine .next ?_
  cases s.seq.phase with
  | idle => exact .refl s
  | fetch => exact fetchWord_keeps _ _ s
  | addr => exact .ite (.refl s) (cccAddr_keeps code n s)
  | data => exact writeData_keeps _ n (cccSent_keeps code) s
  | fin => exact endWord_keeps mend s

theorem privAddr_keeps (arb : Bool) (a : Addr7) (rnw : Bool) (n : BitVec 16) (s : State) :
    Keeps s (privAddr arb a rnw n s) := by
  unfold privAddr
  cases s.work.micro with
  | start => exact messageStart_keeps _ s
  | hdr => exact sendHeader_keeps (goto_keeps _) s
  | rstart => exact phy_keeps fun _ => .of_key rfl
  | addr => exact sendAddress_keeps a rnw (toData_keeps n messageDone_keeps) s
  | _ => exact .refl s

theorem privData_keeps (i2c rnw : Bool) (n : BitVec 16) (s : State) : Keeps s (privData i2c rnw n s) :=
  .ite (readData_keeps i2c n messageDone_keeps s) (writeData_keeps i2c n messageDone_keeps s)

theorem execCwPriv_keeps (mend arb : Bool) (a : Addr7) (rnw : Bool) (n : BitVec 16) (s : State) :
    ResultKeeps s (execCwPriv mend arb a rnw n s) := by
  refine .next ?_
  cases s.seq.phase with
  | idle => exact .refl s
  | fetch => exact fetchWord_keeps _ _ s
  | addr => exact .ite (.refl s) (privAddr_keeps arb a rnw n s)
  | data => exact privData_keeps _ rnw n s
  | fin => exact endWord_keeps mend s

theorem execCwI2c_keeps (mend arb : Bool) (a : Addr7) (rnw : Bool) (n : BitVec 16) (s : State) :
    ResultKeeps s (execCwI2c mend arb a rnw n s) := by
  refine .next ?_
  cases s.seq.phase with
  | idle => exact .refl s
  | fetch => exact fetchWord_keeps _ _ s
  | addr => exact .ite (.refl s) (privAddr_keeps arb a rnw n s)
  | data => exact privData_keeps _ rnw n s
  | fin => exact endWord_keeps mend s

theorem directDone_keeps (a : Addr7) (rnw : Bool) (s : State) : Keeps s (directDone a rnw s) :=
  .ite (.ite (raiseError_keeps _ s) (.ite ((messageDone_keeps _).after rfl) (raiseError_keeps _ s)))
    (messageDone_keeps s)

theorem directAddr_keeps (a : Addr7) (rnw : Bool) (n : BitVec 16) (s : State) : Keeps s (directAddr a rnw n s) := by
  unfold directAddr
  cases s.work.micro with
  | start => exact phy_keeps fun _ => .of_key rfl
  | addr => exact sendAddress_keeps a rnw (fun _ => (toData_keeps n (directDone_keeps a rnw) _).after (by rfl)) s
  | _ => exact .refl s

theorem directData_keeps (a : Addr7) (rnw : Bool) (n : BitVec 16) (s : State) : Keeps s (directData a rnw n s) :=
  .ite (readData_keeps _ n (directDone_keeps a rnw) s) (writeData_keeps _ n (directDone_keeps a rnw) s)

theorem execCwDirect_keeps (mend arb : Bool) (a : Addr7) (rnw : Bool) (n : BitVec 16) (s : State) :
    ResultKeeps s (execCwDirect mend arb a rnw n s) := by
  refine .next ?_
  cases s.seq.phase with
  | idle => exact .refl s
  | fetch => exact fetchWord_keeps _ _ s
  | addr => exact .ite (.refl s) (directAddr_keeps a rnw n s)
  | data => exact directData_keeps a rnw n s
  | fin => exact endWord_keeps mend s

/-! ## One-shot commands -/

theorem execSetdasa_keeps (st : Strat) (sub : Byte) (s : State) : ResultKeeps s (execSetdasa st sub s) := by
  refine .next ?_
  split
  · exact reject_keeps _ s
  · exact .ite (reject_keeps _ s)
      (.ite (((reject_keeps _ s).trans (latchFlag_keeps .dynaddr _)).before rfl)
        ((accept_keeps opSetdasa st s.arg.arg2 s).before rfl))

theorem oneShotStart_keeps (next : Micro) (s : State) : Keeps s (oneShotStart next s) := by
  unfold oneShotStart
  refine phy_keeps fun answer => ?_
  cases answer with
  | arb a rnw => exact .of_key rfl
  | _ => exact .of_key rfl

theorem oneShotDone_keeps (aux : BitVec 16) (s : State) : Keeps s (oneShotDone aux s) :=
  (endCommand_keeps _ _ _ (goto .start s)).after rfl

theorem setdasaStep_keeps (s : State) : Keeps s (setdasaStep s) := by
  unfold setdasaStep
  cases s.work.micro with
  | start => exact oneShotStart_keeps _ s
  | hdr => exact sendHeader_keeps (goto_keeps _) s
  | code => exact sendByte_keeps _ (goto_keeps _) s
  | rstart => exact phy_keeps fun _ => .of_key rfl
  | addr =>
    refine phy_keeps fun answer => ?_
    cases answer with
    | ack => exact .of_key rfl
    | nack => exact raiseError_keeps _ _
    | err j => exact raiseError_keeps _ _
    | _ => exact .refl _
  | data => exact sendByte_keeps _ (fun _ => .of_key (by rfl)) s
  | stop => exact phy_keeps fun _ => (oneShotDone_keeps _ _).after rfl
  | _ => exact .refl s

theorem probeAddr_keeps (a : Addr7) (next : Micro) (s : State) : Keeps s (probeAddr a next s) := by
  unfold probeAddr
  refine phy_keeps fun answer => ?_
  cases answer with
  | ack => exact .of_key rfl
  | nack => exact .of_key rfl
  | err j => exact raiseError_keeps _ _
  | _ => exact .refl _

theorem probeTrialEnd_keeps (s : State) : Keeps s (probeTrialEnd s) :=
  .ite (oneShotDone_keeps _ s) (.ite (raiseError_keeps _ s) (.of_key rfl))

theorem probeStep_keeps (s : State) : Keeps s (probeStep s) := by
  unfold probeStep
  cases s.work.micro with
  | start => exact oneShotStart_keeps _ s
  | hdr => exact probeAddr_keeps _ _ s
  | rstart => exact phy_keeps fun _ => .of_key rfl
  | addr => exact probeAddr_keeps _ _ s
  | stop => exact phy_keeps fun _ => (probeTrialEnd_keeps _).after rfl
  | _ => exact .refl s

theorem execBusRecover_keeps (st : Strat) (sub : Byte) (s : State) : ResultKeeps s (execBusRecover st sub s) := by
  refine .next ?_
  split
  · exact reject_keeps _ s
  · exact (accept_keeps opBusRecover st 0 s).trans (setLife_keeps _ _)

theorem recoverStep_keeps (s : State) : Keeps s (recoverStep s) := phy_keeps fun _ => (oneShotDone_keeps _ _).after rfl

/-! ## Dynamic address assignment -/

theorem daaAccept_keeps (st : Strat) (sub : Byte) (s : State) : Keeps s (daaAccept st sub s) :=
  (accept_keeps opDaa st s.arg.arg2 s).trans
    ⟨id, fun ⟨hctrl, htx, hrx, hctx, _, hnbuf⟩ => ⟨hctrl, htx, hrx, hctx, addrOf_lt _ _, hnbuf⟩, id, id, id,
      fun _ => id, rfl⟩

theorem daaEnter_keeps (p : DaaPhase) (s : State) : Keeps s (daaEnter p s) := .of_key rfl

theorem roundEnd_keeps (s : State) : Keeps s (roundEnd s) :=
  (endCommand_keeps _ _ _ (daaEnter .idle s)).after rfl

theorem roundStop_keeps (s : State) : Keeps s (roundStop s) := phy_keeps fun _ => (roundEnd_keeps _).after rfl

theorem daaHeader_keeps (rnw : Bool) (next : Micro) (s : State) : Keeps s (daaHeader rnw next s) := by
  unfold daaHeader
  refine phy_keeps fun answer => ?_
  cases answer with
  | ack => exact .of_key rfl
  | nack => exact .of_key rfl
  | err j => exact raiseError_keeps _ _
  | _ => exact .refl _

theorem rstdaaStep_keeps (s : State) : Keeps s (rstdaaStep s) := by
  unfold rstdaaStep
  cases s.work.micro with
  | start => exact oneShotStart_keeps _ s
  | hdr => exact daaHeader_keeps _ _ s
  | code => exact sendByte_keeps _ (goto_keeps _) s
  | stop => exact phy_keeps fun _ => .of_key rfl
  | quit => exact roundStop_keeps s
  | _ => exact .refl s

theorem entdaaStep_keeps (s : State) : Keeps s (entdaaStep s) := by
  unfold entdaaStep
  cases s.work.micro with
  | start => exact oneShotStart_keeps _ s
  | hdr => exact daaHeader_keeps _ _ s
  | code => exact sendByte_keeps _ (daaEnter_keeps _) s
  | quit => exact roundStop_keeps s
  | _ => exact .refl s

theorem loopStart_keeps (s : State) : Keeps s (loopStart s) :=
  .ite (.refl s) (.ite (roundStop_keeps s) (phy_keeps fun _ => .of_key rfl))

theorem loopStep_keeps (s : State) : Keeps s (loopStep s) := by
  unfold loopStep
  cases s.work.micro with
  | start => exact loopStart_keeps s
  | addr => exact daaHeader_keeps _ _ s
  | data =>
    refine phy_keeps fun answer => ?_
    cases answer with
    | payload p => exact .of_key rfl
    | err j => exact raiseError_keeps _ _
    | _ => exact .refl _
  | quit => exact roundStop_keeps s
  | _ => exact .refl s

/-- A payload is stored at DAAPTR, which goes on within the address space. -/
theorem storePayload_keeps {s t : State} (h : storePayload s = some t) : Keeps s t := by
  unfold storePayload at h
  split at h
  · cases h
  · next u hu =>
    obtain rfl := Option.some.inj h
    have hw := memWrite_keeps hu
    refine hw.trans ⟨id, fun ⟨hctrl, htx, hrx, hctx, _, hnbuf⟩ => ⟨hctrl, htx, hrx, hctx, ?_, hnbuf⟩, id, id, id,
      fun _ => id, rfl⟩
    exact lt_of_lt_of_eq (byteAt_lt s _ _) (by rw [hw.params])

theorem reportPayload_keeps {k : State → State} (hk : ∀ u, Keeps u (k u)) (s : State) :
    Keeps s (reportPayload k s) := by
  unfold reportPayload
  refine .ite ?_ ((flag_keeps _ s).trans (hk _))
  split
  · exact raiseError_keeps _ s
  · next t ht => exact (storePayload_keeps ht).trans ((flag_keeps _ t).trans (hk _))

theorem offerAddress_keeps (a : Addr7) (s : State) : Keeps s (offerAddress a s) := by
  unfold offerAddress
  dsimp only
  cases s.env.params.daaTiming with
  | preAssign => exact (reportPayload_keeps (goto_keeps _) _).after rfl
  | postAssign => exact .of_key rfl

theorem addressTaken_keeps (s : State) : Keeps s (addressTaken s) := by
  unfold addressTaken
  dsimp only
  cases s.env.params.daaTiming with
  | preAssign => exact .of_key rfl
  | postAssign => exact (reportPayload_keeps (daaEnter_keeps _) _).after rfl

theorem assignStep_keeps (s : State) : Keeps s (assignStep s) := by
  unfold assignStep
  cases s.work.micro with
  | start =>
    dsimp only
    split
    · exact raiseError_keeps _ s
    · exact offerAddress_keeps _ s
  | data =>
    refine phy_keeps fun answer => ?_
    cases answer with
    | ack => exact addressTaken_keeps _
    | nack => exact raiseError_keeps _ _
    | err j => exact raiseError_keeps _ _
    | _ => exact .refl _
  | _ => exact .refl s

theorem daaStep_keeps (s : State) : Keeps s (daaStep s) := by
  unfold daaStep
  cases s.daa.phase with
  | idle => exact .refl s
  | rstdaa => exact rstdaaStep_keeps s
  | entdaa => exact entdaaStep_keeps s
  | loop => exact loopStep_keeps s
  | assign => exact assignStep_keeps s

/-! ## Notification and lifecycle commands -/

/-- Bits that are among unreserved ones are unreserved. -/
theorem unreserved_of_subset {a m r : Word} (ha : a &&& ~~~m = 0#32) (hm : m &&& ~~~r = 0#32) : a &&& ~~~r = 0#32 := by
  ext i hi
  have hai : (a &&& ~~~m)[i] = (0#32)[i] := by rw [ha]
  have hmi : (m &&& ~~~r)[i] = (0#32)[i] := by rw [hm]
  simp only [BitVec.getElem_and, BitVec.getElem_not, BitVec.getElem_zero] at hai hmi ⊢
  cases hm' : m[i] <;> simp_all

/-- The notification ids of a mode are unreserved bits. -/
theorem idMask_unreserved (m : Mode) : idMask m &&& ~~~0x07FF03FF#32 = 0#32 := by
  cases m <;> decide

/-- Clearing bits keeps reserved bits 0. -/
theorem and_unreserved {a : Word} (b : Word) (ha : a &&& ~~~0x07FF03FF#32 = 0#32) :
    a &&& b &&& ~~~0x07FF03FF#32 = 0#32 := by
  rw [BitVec.and_assoc, BitVec.and_comm b, ← BitVec.and_assoc, ha, BitVec.zero_and]

/-- NOTIFY_ACTIVATE sets ids of the mode alone, and loads NBUFPTR. -/
theorem notifyActivate_keeps {s : State} (h : maskOk s = true) : Keeps s (notifyActivate s) := by
  have hmask : s.arg.arg0 &&& ~~~idMask s.ctl.mode = 0#32 := by simpa [maskOk] using h
  have hnoten : s.rep.noten &&& ~~~0x07FF03FF#32 = 0#32 →
      (s.rep.noten ||| s.arg.arg0) &&& ~~~0x07FF03FF#32 = 0#32 :=
    fun hn => or_unreserved hn (unreserved_of_subset hmask (idMask_unreserved _))
  unfold notifyActivate
  dsimp only
  split
  · exact ⟨id, fun ⟨hctrl, htx, hrx, hctx, hdaa, _⟩ => ⟨hctrl, htx, hrx, hctx, hdaa, addrOf_lt _ _⟩,
      fun _ => listenOk_relisten _, id, fun ⟨hisr, hier, hn⟩ => ⟨hisr, hier, hnoten hn⟩, fun _ => id, rfl⟩
  · exact ⟨id, id, fun _ => listenOk_relisten _, id, fun ⟨hisr, hier, hn⟩ => ⟨hisr, hier, hnoten hn⟩, fun _ => id, rfl⟩

theorem execNotifyActivate_keeps (st : Strat) (sub : Byte) (s : State) :
    ResultKeeps s (execNotifyActivate st sub s) := by
  refine .next (.ite (presult_keeps _ s) (.ite_of (fun h => ?_) (fun _ => presult_keeps _ s)))
  have hmask : maskOk s = true := (Bool.and_eq_true_iff.mp h).1
  exact (notifyActivate_keeps hmask).trans (presult_keeps _ _)

theorem execNotifyDeactivate_keeps (st : Strat) (sub : Byte) (s : State) :
    ResultKeeps s (execNotifyDeactivate st sub s) := by
  refine .next (.ite (presult_keeps _ s) (.ite ?_ (presult_keeps _ s)))
  exact ⟨id, id, fun _ => listenOk_relisten _, id, fun ⟨hisr, hier, hn⟩ => ⟨hisr, hier, and_unreserved _ hn⟩,
    fun _ => id, rfl⟩

theorem execGetCccInfo_keeps (st : Strat) (sub : Byte) (s : State) : ResultKeeps s (execGetCccInfo st sub s) := by
  refine .next (.ite (presult_keeps _ s) ?_)
  split
  · exact presult_keeps _ s
  · exact .ite (.of_key rfl) (presult_keeps _ s)

theorem execInit_keeps (st : Strat) (sub : Byte) (s : State) : ResultKeeps s (execInit st sub s) := by
  refine .next ?_
  split
  · exact reject_keeps _ s
  · exact reject_keeps _ s
  · exact resetBlock_with_keeps rfl s

theorem initDone_keeps (s : State) : Keeps s (initDone s) := (setLife_keeps _ s).trans (finish_keeps _ _ _)

/-! ## Every instruction -/

/-- Every instruction keeps the invariants, whatever its operands. -/
theorem exec_keeps (i : Instr) (s : State) : ResultKeeps s (exec i s) := by
  cases i with
  | ctxReset st sub => exact .next (.ite (endWrites_keeps _ s) (presult_keeps _ s))
  | ctxBind st sub => exact .next (.ite (endWrites_keeps _ s) (presult_keeps _ s))
  | buildPrivate st sub => exact .next (build_keeps _ sub s)
  | buildCcc st sub => exact .next (build_keeps _ sub s)
  | decodePayload st sub => exact .next (.of_key rfl)
  | init st sub => exact execInit_keeps st sub s
  | deinit st sub => exact .next (.ite ((resetBlock_keeps s).trans (presult_keeps _ _)) (presult_keeps _ s))
  | start st sub => exact execStart_keeps st sub s
  | abort st sub => exact .next (.ite (.of_key rfl) (presult_keeps _ s))
  | daa st sub => exact .next (longCommand_keeps (daaAccept_keeps st sub s))
  | setdasa st sub => exact execSetdasa_keeps st sub s
  | probe st sub => exact .next (longCommand_keeps ((accept_keeps opProbe st s.arg.arg2 s).before rfl))
  | busRecover st sub => exact execBusRecover_keeps st sub s
  | tgtTx st sub => exact .next (longCommand_keeps (tgtTxAccept_keeps st s))
  | tgtRx st sub => exact .next (longCommand_keeps (tgtRxAccept_keeps st s))
  | hjReq st sub => exact .next (longCommand_keeps ((accept_keeps opHjReq st s.arg.arg2 s).before rfl))
  | crReq st sub => exact .next (longCommand_keeps ((accept_keeps opCrReq st s.arg.arg2 s).before rfl))
  | ibiReq st sub => exact .next (longCommand_keeps (ibiAccept_keeps st s))
  | notifyActivate st sub => exact execNotifyActivate_keeps st sub s
  | notifyDeactivate st sub => exact execNotifyDeactivate_keeps st sub s
  | getCccInfo st sub => exact execGetCccInfo_keeps st sub s
  | cwCcc mend arb code n => exact execCwCcc_keeps mend arb code n s
  | cwPriv mend arb a rnw n => exact execCwPriv_keeps mend arb a rnw n s
  | cwI2c mend arb a rnw n => exact execCwI2c_keeps mend arb a rnw n s
  | cwDirect mend arb a rnw n => exact execCwDirect_keeps mend arb a rnw n s
  | enecB => exact .next (broadcastCcc_keeps _ enecEffect_keeps s)
  | disecB => exact .next (broadcastCcc_keeps _ disecEffect_keeps s)
  | entas0B => exact .next (broadcastCcc_keeps _ (entasEffect_keeps _) s)
  | entas1B => exact .next (broadcastCcc_keeps _ (entasEffect_keeps _) s)
  | entas2B => exact .next (broadcastCcc_keeps _ (entasEffect_keeps _) s)
  | entas3B => exact .next (broadcastCcc_keeps _ (entasEffect_keeps _) s)
  | rstdaaB => exact .next (broadcastCcc_keeps _ rstdaaEffect_keeps s)
  | entdaa => exact execEntdaa_keeps s
  | deftgts => exact .next (listCcc_keeps _ s)
  | setmwlB => exact .next (broadcastCcc_keeps _ setmwlEffect_keeps s)
  | setmrlB => exact .next (broadcastCcc_keeps _ setmrlEffect_keeps s)
  | rstactB => exact .next (broadcastCcc_keeps _ rstactEffect_keeps s)
  | defgrpa => exact .next (listCcc_keeps _ s)
  | enecD => exact .next (directWrite_keeps _ enecEffect_keeps s)
  | disecD => exact .next (directWrite_keeps _ disecEffect_keeps s)
  | entas0D => exact .next (directWrite_keeps _ (entasEffect_keeps _) s)
  | entas1D => exact .next (directWrite_keeps _ (entasEffect_keeps _) s)
  | entas2D => exact .next (directWrite_keeps _ (entasEffect_keeps _) s)
  | entas3D => exact .next (directWrite_keeps _ (entasEffect_keeps _) s)
  | rstdaaD => exact .next (directWrite_keeps _ rstdaaEffect_keeps s)
  | setdasaCcc => exact .next (directWrite_keeps _ setdasaEffect_keeps s)
  | setnewda => exact .next (directWrite_keeps _ setnewdaEffect_keeps s)
  | setmwlD => exact .next (directWrite_keeps _ setmwlEffect_keeps s)
  | setmrlD => exact .next (directWrite_keeps _ setmrlEffect_keeps s)
  | getmwl => exact .next (directRead_keeps _ (fun _ => by simp [respMwl, be16]) getSent_keeps s)
  | getmrl => exact .next (directRead_keeps _ respMrl_length_le getSent_keeps s)
  | getpid => exact .next (directRead_keeps _ (fun _ => by simp [respPid]) getSent_keeps s)
  | getbcr => exact .next (directRead_keeps _ (fun _ => by simp [respBcr]) getSent_keeps s)
  | getdcr => exact .next (directRead_keeps _ (fun _ => by simp [respDcr]) getSent_keeps s)
  | getstatus => exact .next (directRead_keeps _ (fun _ => by simp [respStatus]) getstatusSent_keeps s)
  | getacccr => exact .next (directRead_keeps _ (fun _ => by simp [respAcccr]) acccrSent_keeps s)
  | rstactD => exact execRstactD_keeps s
  | enthdr hdr => exact execEnthdr_keeps hdr s

/-! ## Host accesses -/

theorem popSfifo_keeps (s : State) : Keeps s (popSfifo s).2 := by
  unfold popSfifo
  split
  · next w r h =>
    exact .of_fields rfl rfl rfl rfl rfl le_rfl (by simp [h]) le_rfl le_rfl (le_max_right _ _)
  · exact latchFlag_keeps _ s

theorem popRxfifo_keeps (s : State) : Keeps s (popRxfifo s).2 := by
  unfold popRxfifo
  split
  · next b r h =>
    exact .of_fields rfl rfl rfl rfl rfl le_rfl le_rfl le_rfl (by simp [h]) (le_max_right _ _)
  · exact latchFlag_keeps _ s

theorem hostRead_keeps (off : Byte) (s : State) : Keeps s (hostRead off s) := by
  have hreg : Keeps s (readReg off s).2 := by
    unfold readReg
    split
    · exact popSfifo_keeps s
    split
    · exact popRxfifo_keeps s
    · exact .refl s
  exact hreg.before rfl

theorem pushCfifo_keeps (w : Word) (s : State) : Keeps s (pushCfifo w s) := by
  refine .ite (.ite_of (fun _ => latchFlag_keeps _ s) fun hfull => ?_) (.refl s)
  have hroom : s.fifo.cfifo.length < s.env.params.cfifoDepth := by simpa [cfifoFull] using hfull
  exact ⟨id, id, id, id, id, fun _ ⟨_, hs, ht, hr, hb⟩ => ⟨length_push_le w hroom, hs, ht, hr, hb⟩, rfl⟩

theorem pushTxfifo_keeps (w : Word) (s : State) : Keeps s (pushTxfifo w s) := by
  refine .ite (.ite_of (fun _ => latchFlag_keeps _ s) fun hfull => ?_) (.refl s)
  have hroom : s.fifo.txfifo.length < s.env.params.txfifoDepth := by simpa [txfifoFull] using hfull
  exact ⟨id, id, id, id, id, fun _ ⟨hc, hs, _, hr, hb⟩ => ⟨hc, hs, length_push_le _ hroom, hr, hb⟩, rfl⟩

theorem clearIsr_keeps (v : Word) (s : State) : Keeps s (clearIsr v s) :=
  ⟨id, id, id, id, fun ⟨hisr, hier, hn⟩ => ⟨and_unreserved _ hisr, hier, hn⟩, fun _ => id, rfl⟩

theorem writeIer_keeps (v : Word) (s : State) : Keeps s { s with rep.ier := v &&& flagMask } := by
  have hmask : v &&& flagMask &&& ~~~0x07FF03FF#32 = 0#32 := by
    rw [BitVec.and_comm v]
    exact and_unreserved v (by decide)
  exact ⟨id, id, id, id, fun ⟨hisr, _, hn⟩ => ⟨hisr, hmask, hn⟩, fun _ => id, rfl⟩

/-- A word that names an address with its valid bit names a valid one, where it is not refused. -/
theorem validDa_of_accepted {v : Word} (h : ¬(v.getLsbD 7 && !validDa (bitField v 0 7)) = true)
    (hv : v.getLsbD 7 = true) : validDa (bitField v 0 7) = true := by
  simpa [hv] using h

theorem writeOwnaddr_keeps (v : Word) (s : State) : Keeps s (writeOwnaddr v s) :=
  .ite_of (fun _ => latchFlag_keeps _ s) fun h => (setOwnDa_keeps (validDa_of_accepted h) s).before rfl

theorem writeBdt_keeps (i : Fin 4) (v : Word) (s : State) : Keeps s (writeBdt i v s) := by
  refine .ite_of (fun _ => latchFlag_keeps _ s) fun h => ?_
  refine ⟨id, id, id, fun ⟨hown, hbdt⟩ => ⟨hown, fun j hj => ?_⟩, id, fun _ => id, rfl⟩
  by_cases hij : i = j
  · subst hij
    simp only [Fin.getElem_fin, Vector.getElem_set_self] at hj ⊢
    exact validDa_of_accepted h hj
  · have hne : i.val ≠ j.val := fun e => hij (Fin.ext e)
    simp only [Fin.getElem_fin, Vector.getElem_set_ne _ _ hne] at hj ⊢
    exact hbdt j hj

theorem writeConfig_keeps (off : Byte) (v : Word) (s : State) : Keeps s (writeConfig off v s) := by
  unfold writeConfig
  split
  · exact .of_key rfl
  · exact .of_key rfl
  · exact .of_key rfl
  · exact writeOwnaddr_keeps v s
  · exact .of_key rfl
  · exact .of_key rfl
  · exact .of_key rfl
  · exact .of_key rfl
  · exact .of_key rfl
  · exact .of_key rfl
  · exact writeBdt_keeps _ v s
  · exact writeBdt_keeps _ v s
  · exact writeBdt_keeps _ v s
  · exact writeBdt_keeps _ v s
  · exact .refl s

theorem hostWrite_keeps (off : Byte) (v : Word) (s : State) : Keeps s (hostWrite off v s) := by
  unfold hostWrite
  split
  · exact .of_key rfl
  · exact .of_key rfl
  · exact .of_key rfl
  · exact .of_key rfl
  · exact .of_key rfl
  · exact writeIer_keeps v s
  · exact clearIsr_keeps v s
  · exact pushCfifo_keeps v s
  · exact pushTxfifo_keeps v s
  · exact .ite (.of_key rfl) (.refl s)
  · exact .ite (writeConfig_keeps off v s) (.refl s)

theorem writeCmd_keeps (v : Word) (s : State) : ResultKeeps s (writeCmd v s) := by
  unfold writeCmd
  split
  · exact exec_keeps _ s
  · exact .next (presult_keeps _ s)

theorem hostTurn_keeps (a : HostAccess) (s : State) : ResultKeeps s (hostTurn a s) := by
  cases a with
  | read off width => exact .ite (.next (hostRead_keeps off s)) (.refused _)
  | write off width v => exact .ite (.ite (writeCmd_keeps v s) (.next (hostWrite_keeps off v s))) (.refused _)

theorem hostMemTurn_keeps (a : Nat) (b : Byte) (s : State) : Keeps s (hostMemTurn a b s) :=
  ⟨fun h => Memory.wf_write b (byteAt_lt s a 0) h, id, id, id, id, fun _ => id, rfl⟩

/-! ## ENGINE, controller role -/

theorem fetchStep_keeps (s : State) : ResultKeeps s (fetchStep s) := by
  refine .ite (.next (.refl s)) ?_
  split
  · split
    · exact exec_keeps _ s
    · exact .next (fetchWord_keeps _ _ s)
  · exact .next (.ite (.refl s) (.ite (raiseError_keeps _ s) (.refl s)))

theorem sequencerStep_keeps (s : State) : ResultKeeps s (sequencerStep s) := by
  unfold sequencerStep
  split
  · exact .next (.refl s)
  · exact fetchStep_keeps s
  · split
    · exact exec_keeps _ s
    · exact .next (.refl s)

theorem controllerStep_keeps (s : State) : ResultKeeps s (controllerStep s) :=
  .ite (.next (requestStep_keeps s)) (.ite (.next (daaStep_keeps s)) (.ite (sequencerStep_keeps s)
    (.ite (.next (setdasaStep_keeps s)) (.ite (.next (probeStep_keeps s)) (.ite (.next (recoverStep_keeps s))
      (.next (.refl s)))))))

/-! ## ENGINE, target role -/

theorem cccStep_keeps {k : State → State} {s : State} (hk : Keeps s (k s)) : ResultKeeps s (cccStep k s) := by
  unfold cccStep
  split
  · exact exec_keeps _ s
  · exact .next hk

theorem targetStep_keeps (u : EngineUnit) (s : State) : ResultKeeps s (targetStep u s) := by
  unfold targetStep
  cases u with
  | main => exact .next (.refl s)
  | drive =>
    dsimp only
    cases s.tgt.phase with
    | directR => exact cccStep_keeps (k := id) (.refl s)
    | privR => exact .next (privReadStep_keeps s)
    | _ => exact .next (.refl s)
  | request => exact .next (targetRequestStep_keeps s)
  | close => exact .next (closeStep_keeps s)

theorem frameTurn_keeps (e : PhyEvent) (s : State) : ResultKeeps s (frameTurn e s) := by
  unfold frameTurn
  cases s.tgt.phase with
  | cccData => exact cccStep_keeps (frameEvent_keeps e s)
  | directW => exact cccStep_keeps (frameEvent_keeps e s)
  | _ => exact .next ((endMessage_keeps s).trans (frameEvent_keeps e _))

theorem matchAddr_keeps (a : Addr7) (rnw : Bool) (s : State) : ResultKeeps s (matchAddr a rnw s) :=
  .ite (.next (ackAddr_keeps _ s)) (.ite (.next ((detect_keeps _ s).trans (nackAddr_keeps _)))
    (.ite (cccStep_keeps (nackAddr_keeps s)) (.ite (.next (ackAddr_keeps _ s)) (.ite (.next (ackAddr_keeps _ s))
      (.next (nackAddr_keeps s))))))

theorem codeByte_keeps (c : Byte) (s : State) : ResultKeeps s (codeByte c s) := by
  unfold codeByte
  split
  · exact exec_keeps _ s
  · exact .next (undefinedCode_keeps c s)
  · exact .next (unsupportedCode_keeps c s)

/-- A byte is taken only where it does not have to wait for the MOVER, which leaves RXFIFO room for it. -/
theorem byteTurn_keeps (b : Byte) {s : State} (h : privWriteHolds s = false) : ResultKeeps s (byteTurn b s) := by
  unfold byteTurn
  cases hphase : s.tgt.phase with
  | ccc => exact codeByte_keeps b s
  | cccData => exact cccStep_keeps (.refl s)
  | directW => exact cccStep_keeps (.refl s)
  | direct => exact .ite (.next (.refl s)) (cccStep_keeps (definingByte_keeps b s))
  | privW => exact .next (privWriteByte_keeps b fun hlim => by simpa [privWriteHolds, hphase, hlim] using h)
  | ignore => exact .next (.refl s)
  | daa => exact .next (.refl s)
  | idle => exact .next (detectIgnore_keeps _ s)
  | addr => exact .next (detectIgnore_keeps _ s)
  | privR => exact .next (detectIgnore_keeps _ s)
  | directR => exact .next (detectIgnore_keeps _ s)

theorem resetPattern_keeps (s : State) : Keeps s (resetPattern s) :=
  .after (.before (notify_keeps .nRstAct { s with tgt.phase := .idle, tgt.ccccur := 0 }) rfl) rfl

theorem targetEvent_keeps (e : PhyEvent) {s : State} (h : ∀ b, e = .byte b → privWriteHolds s = false) :
    ResultKeeps s (targetEvent e s) := by
  cases e with
  | start => exact .ite (.next (.refl s)) (frameTurn_keeps _ s)
  | rstart => exact .ite (.next (.refl s)) (frameTurn_keeps _ s)
  | stop => exact frameTurn_keeps _ s
  | addr a rnw => exact .ite (matchAddr_keeps a rnw s) (.next (drive_keeps _ s))
  | byte b => exact byteTurn_keeps b (h b rfl)
  | daaSr => exact .ite (exec_keeps _ s) (.next (.refl s))
  | da a => exact .ite (exec_keeps _ s) (.next (.refl s))
  | resetPattern => exact .next (.ite (.refl s) (resetPattern_keeps s))
  | wakeup => exact .next (.ite (.refl s) (notify_keeps _ s))
  | err k => exact .next (.ite (targetError_keeps k s) (.refl s))
  | treq a rnw => exact .next (.refl s)

/-! ## ENGINE -/

theorem roleStep_keeps (u : EngineUnit) (s : State) : ResultKeeps s (roleStep u s) := by
  unfold roleStep
  cases s.ctl.mode with
  | none => exact .next (.refl s)
  | controller => exact controllerStep_keeps s
  | target => exact targetStep_keeps u s

theorem abortTurn_keeps (u : EngineUnit) (a : PhyAnswer) (s : State) : ResultKeeps s (abortTurn u a s) := by
  unfold abortTurn
  split
  · split
    · next t ht => exact .next (.trans (.ite (roleStep_keeps u s t ht) (.refl s)) (abortConfirm_keeps _))
    · exact .next (abortConfirm_keeps s)
  · exact .next (abortConfirm_keeps s)

theorem engineTurn_keeps (u : EngineUnit) (a : PhyAnswer) (s : State) : ResultKeeps s (engineTurn u a s) :=
  .ite (abortTurn_keeps u a s) (.ite (.next (.refl s)) (.ite (.next (initDone_keeps s)) (roleStep_keeps u s)))

theorem eventTurn_keeps (s : State) : ResultKeeps s (eventTurn s) := by
  refine .ite (.next (abortConfirm_keeps s)) ?_
  split
  · exact .next (.refl s)
  · dsimp only
    split
    · exact .next (.of_key rfl)
    · exact .ite (.next (.refl s)) (.next (.ite (.of_key rfl) (.of_key rfl)))
    · exact .next (.of_key rfl)
    · split
      · exact .next (.of_key rfl)
      split
      · exact .next (.refl s)
      · next hholds =>
        refine .after (targetEvent_keeps _ fun _ _ => ?_) rfl
        exact Bool.eq_false_of_not_eq_true hholds
    · next hbyte _ =>
      exact .ite ((targetEvent_keeps _ fun b he => absurd he (hbyte b)).after rfl) (.next (.of_key rfl))

/-! ## MOVER -/

theorem moverM1_keeps (dmaErr : Bool) (s : State) : Keeps s (moverM1 dmaErr s) := by
  refine .ite_of (fun h => ?_) (fun _ => .refl s)
  have hroom : s.fifo.cfifo.length < s.env.params.cfifoDepth := by
    simp only [Bool.and_eq_true, cfifoFull, Bool.not_eq_true', decide_eq_false_iff_not] at h
    omega
  split
  · exact raiseError_keeps _ s
  · exact ⟨id, fun ⟨_, htx, hrx, hctx, hdaa, hnbuf⟩ => ⟨byteAt_lt s _ _, htx, hrx, hctx, hdaa, hnbuf⟩, id, id, id,
      fun _ ⟨_, hs, ht, hr, hb⟩ => ⟨length_push_le _ hroom, hs, ht, hr, hb⟩, rfl⟩

/-- TXREQ means room in TXFIFO: its threshold is at least one byte under a legal parameter set. -/
theorem txfifo_room_of_txReq {s : State} (hl : s.env.params.legal = true) (h : txReq s = true) :
    s.fifo.txfifo.length < s.env.params.txfifoDepth := by
  have hdepth : 1 ≤ s.env.params.txfifoDepth := by
    simp only [Params.legal, Params.depthOk, Bool.and_eq_true, decide_eq_true_eq] at hl
    omega
  have hthr : 1 ≤ thrTx s := by
    unfold thrTx
    split <;> omega
  simp only [txReq, Bool.or_eq_true, Bool.and_eq_true, decide_eq_true_eq] at h
  unfold txFree at h
  omega

theorem moverM2_keeps (dmaErr : Bool) (s : State) : Keeps s (moverM2 dmaErr s) := by
  refine .ite_of (fun h => ?_) (fun _ => .refl s)
  have hreq : txReq s = true := (Bool.and_eq_true_iff.mp h).2
  split
  · exact raiseError_keeps _ s
  · exact ⟨id, fun ⟨hctrl, _, hrx, hctx, hdaa, hnbuf⟩ => ⟨hctrl, byteAt_lt s _ _, hrx, hctx, hdaa, hnbuf⟩, id, id, id,
      fun hl ⟨hc, hs, _, hr, hb⟩ => ⟨hc, hs, length_push_le _ (txfifo_room_of_txReq hl hreq), hr, hb⟩, rfl⟩

theorem moverM3_keeps (dmaErr : Bool) (s : State) : Keeps s (moverM3 dmaErr s) := by
  refine .ite ?_ (.refl s)
  split
  · exact .refl s
  · next b r hfifo =>
    split
    · exact raiseError_keeps _ s
    · next t ht =>
      have hw : memWrite s s.cnt.rxptr [b] = some t := by
        split at ht
        · cases ht
        · exact ht
      obtain rfl := memWrite_some hw
      refine (memWrite_keeps hw).trans
        ⟨id, fun ⟨hctrl, htx, _, hctx, hdaa, hnbuf⟩ => ⟨hctrl, htx, byteAt_lt s _ _, hctx, hdaa, hnbuf⟩, id, id, id,
          fun _ ⟨hc, hs, ht, hr, hb⟩ => ⟨hc, hs, ht, le_trans ?_ hr, hb⟩, rfl⟩
      simp [hfifo]

/-! ## Every step -/

theorem runTurn_keeps (t : Turn) (s : State) : ResultKeeps s (runTurn t s) := by
  cases t with
  | host a => exact hostTurn_keeps a s
  | hostMem a b => exact .next (hostMemTurn_keeps a b s)
  | engine u a => exact (engineTurn_keeps u a _).after rfl
  | event => exact eventTurn_keeps s
  | mover m dmaErr =>
    cases m with
    | m1 => exact .next (moverM1_keeps dmaErr s)
    | m2 => exact .next (moverM2_keeps dmaErr s)
    | m3 => exact .next (moverM3_keeps dmaErr s)
  | timeout => exact .next (.ite (timeoutHalt_keeps s) (.refl s))
  | powerOn => exact .next (resetBlock_keeps s)

/-- Every step keeps every invariant of Safety.lean but `LifecycleOk`. -/
theorem step_keeps (s : State) : ResultKeeps s (step s) := by
  unfold step nextTurn
  refine .ite ?_ (.refused _)
  split
  · exact .next (.refl s)
  · exact (runTurn_keeps _ _).after rfl

/-- Settles O8: the part of `step_keeps` about system memory and the pointers into it. -/
theorem stepKeepsMemory : Obligations.StepKeepsMemory := by
  intro s t h
  have hkeeps : Keeps s t := step_keeps s t h
  exact ⟨hkeeps.memory, hkeeps.pointers⟩

end Sys2Proof.Machine
end

section
/-! SUPPORT. The invariants of Safety.lean that `step_keeps` covers, each as the statement it settles; and the lookup in the
Bus Device Table (spec/10_state.md R72). -/

namespace Sys2Proof.Machine

/-! ## Invariants of every step -/

/-- A step that has a next state runs under a legal parameter set. -/
theorem legal_of_step_next {s t : State} (h : step s = .next t) : s.env.params.legal = true := by
  unfold step at h
  split at h
  · assumption
  · cases h

/-- Settles O10: the part of `step_keeps` about LISTEN. -/
theorem stepKeepsListen : Obligations.StepKeepsListen := fun s t hs h => (step_keeps s t h).listen hs

/-- Settles O11: the part of `step_keeps` about the addresses that are marked valid. -/
theorem stepKeepsAddresses : Obligations.StepKeepsAddresses := fun s t hs h => (step_keeps s t h).addresses hs

/-- Settles O12: the part of `step_keeps` about the reserved bits. -/
theorem stepKeepsReserved : Obligations.StepKeepsReserved := fun s t hs h => (step_keeps s t h).reserved hs

/-- Settles O13: the part of `step_keeps` about the FIFOs and CCCBUF, under the legal parameter set that the step has. -/
theorem stepKeepsCapacity : Obligations.StepKeepsCapacity := fun s t hs h =>
  (step_keeps s t h).capacity (legal_of_step_next h) hs

/-! ## The Bus Device Table -/

/-- The lookup tries the entries in rising order of their index. -/
theorem bdtFind_eq_finFind (s : State) (a : Addr7) :
    bdtFind s a = Fin.find? fun i : Fin 4 => s.cfg.bdt[i].v && s.cfg.bdt[i].da == a := by
  rw [Fin.find?_eq_find?_finRange]
  rfl

/-- Settles O19: a search of the four entries in rising order finds the lowest one, or none. -/
theorem bdtFindLowest : Obligations.BdtFindLowest := by
  intro s a
  rw [bdtFind_eq_finFind]
  refine ⟨fun i => ?_, ?_⟩
  · rw [Fin.find?_eq_some_iff]
    simp
  · rw [Fin.find?_eq_none_iff]
    simp

end Sys2Proof.Machine
end

section
/-! SUPPORT. Every step keeps MODE, STATE, CMDP, ABORTREQ and TMO in agreement. A step of either role's machines leaves
the pending command as it is or ends it in Idle, and that holds with no hypothesis (`Served`): while no abort is requested
it implies the agreement, and before an abort confirmation it says that the block still has a role. The host's commands,
the MOVER, the timeout and the resets keep the agreement one by one. -/

namespace Sys2Proof.Machine

/-! ## The space that a word is decoded in -/

section
variable {i : Instr}

theorem commandOf_space {op sub : Byte} {st : Strat} (h : commandOf op st sub = some i) : i.space = .command := by
  unfold commandOf at h
  split at h <;> cases h <;> rfl

theorem decodeCmd_space {w : Word} (h : decodeCmd w = .ok i) : i.space = .command := by
  unfold decodeCmd at h
  split at h
  · split at h
    · cases h
    split at h
    · cases h
    · next hi =>
      cases h
      exact commandOf_space hi
  · cases h

theorem decodeCw_space {w : Word} (h : decodeCw w = .ok i) : i.space = .control := by
  unfold decodeCw at h
  split at h
  · split at h <;> cases h <;> rfl
  · cases h

theorem cccOf_space {b : Byte} (h : cccOf b = some i) : i.space = .ccc := by
  unfold cccOf at h
  split at h <;> cases h <;> rfl

theorem decodeCcc_space {b : Byte} (h : decodeCcc b = .ok i) : i.space = .ccc := by
  unfold decodeCcc at h
  split at h
  · next hi =>
    cases h
    exact cccOf_space hi
  · split at h <;> cases h
    rfl

theorem map_eq_ok {α β ε : Type} {f : α → β} {x : Except ε α} {y : β} (h : x.map f = .ok y) :
    ∃ a, x = .ok a ∧ f a = y := by
  cases x with
  | error e => cases h
  | ok a => exact ⟨a, rfl, Except.ok.inj h⟩

/-- What is decoded in a space is an instruction of that space. -/
theorem decode_space {sp : Space} {bs : List Byte} {r : Instr × List Byte} (h : decode sp bs = .ok r) :
    r.1.space = sp := by
  unfold decode at h
  split at h
  · obtain ⟨i, hi, rfl⟩ := map_eq_ok h
    exact decodeCcc_space hi
  · obtain ⟨i, hi, rfl⟩ := map_eq_ok h
    exact decodeCmd_space hi
  · obtain ⟨i, hi, rfl⟩ := map_eq_ok h
    exact decodeCw_space hi
  · cases h

end

/-! ## What the block does to the command interface -/

/-- From `c` to `d` the block leaves the pending command as it is, or ends it in Idle; an initialised block stays
initialised, whichever its role, and ABORTREQ and STRAT stay. -/
structure Serves (c d : Control) : Prop where
  role : c.mode ≠ .none → d.mode ≠ .none
  held : (d.abortreq, d.strat) = (c.abortreq, c.strat)
  command : (d.life, d.cmdp, d.tmo) = (c.life, c.cmdp, c.tmo) ∨ (d.life, d.cmdp, d.tmo) = (.idle, false, false)

/-- The command interface of `s` is what the block has made of `c`. -/
def Served (c : Control) (s : State) : Prop := Serves c s.ctl

section
variable {c : Control} {s t : State}

theorem Served.refl (s : State) : Served s.ctl s := ⟨id, rfl, .inl rfl⟩

theorem Served.of_key (h : Served c s) (hk : lifecycleKey t = lifecycleKey s) : Served c t := by
  simp only [lifecycleKey, Prod.mk.injEq] at hk
  obtain ⟨hmode, hlife, hcmdp, habort, htmo, hstrat⟩ := hk
  obtain ⟨hrole, hheld, hcommand⟩ := h
  exact ⟨by rwa [hmode], by rwa [habort, hstrat], by rwa [hlife, hcmdp, htmo]⟩

/-- A role change, to any role but none. -/
theorem Served.of_role (h : Served c s) (hm : t.ctl.mode ≠ .none) (hk : (lifecycleKey t).2 = (lifecycleKey s).2) :
    Served c t := by
  simp only [lifecycleKey, Prod.mk.injEq] at hk
  obtain ⟨hlife, hcmdp, habort, htmo, hstrat⟩ := hk
  obtain ⟨-, hheld, hcommand⟩ := h
  exact ⟨fun _ => hm, by rwa [habort, hstrat], by rwa [hlife, hcmdp, htmo]⟩

theorem Served.ite {p : Prop} [Decidable p] (hs : Served c s) (ht : Served c t) : Served c (if p then s else t) := by
  split
  · exact hs
  · exact ht

/-- While no abort is requested, the ENGINE of an initialised block keeps the lifecycle. -/
theorem Served.lifecycleOk (h : Served s.ctl t) (hm : s.ctl.mode ≠ .none) (ha : s.ctl.abortreq = false)
    (hs : LifecycleOk s) : LifecycleOk t := by
  obtain ⟨hrole, hheld, hcommand⟩ := h
  have hm' := hrole hm
  simp only [Prod.mk.injEq] at hheld hcommand
  obtain ⟨ha', hst⟩ := hheld
  unfold LifecycleOk at hs ⊢
  rcases hcommand with ⟨hl, hc, ht⟩ | ⟨hl, hc, ht⟩
  · simpa only [hl, hc, ht, ha', hst, hm, hm'] using hs
  · simp [hl, hc, ht, ha', ha, hm']

end

/-! ## Results of a step -/

/-- Every next state of the result is one the block has served. -/
def ResultServed (c : Control) (r : Result) : Prop := ∀ t, r = .next t → Served c t

theorem ResultServed.next {c : Control} {t : State} (h : Served c t) : ResultServed c (.next t) := by
  rintro _ ⟨⟩
  exact h

theorem ResultServed.ite {c : Control} {r r' : Result} {p : Prop} [Decidable p] (h : ResultServed c r)
    (h' : ResultServed c r') : ResultServed c (if p then r else r') := by
  split
  · exact h
  · exact h'

/-! ## Shared operations -/

section
variable {c : Control} {s t : State} {code : Code} {aux : BitVec 16} {f : Flag} {e : ErrCode} {ev : PhyEvent}
  {r : PhyReq} {note : RequestNote} {a : Addr7} {b : Byte} {m : BitVec 16} {w : Word} {n : Nat}
  {rnw granted more p q : Bool} {ready : State → Bool} {response : State → List Byte}
  {k : State → State} {kb : Byte → State → State} {kbs : List Byte → State → State} {kp : PhyAnswer → State → State}
  (h : Served c s)
include h

/-- A PHY request serves what its continuation serves. -/
theorem phy_served (hk : ∀ a, Served c (kp a (drive (.req r) s))) : Served c (phy r kp s) := by
  rcases phy_cases r kp s with e | ⟨a, _, _, e⟩
  · rw [e]; exact h
  · rw [e]; exact hk a

theorem notify_served : Served c (notify f s) := h.of_key (notify_key f s)

theorem flagRequest_served : Served c (flagRequest s) := h.of_key (flagRequest_key s)

theorem relisten_served : Served c (relisten s) := h.of_key rfl

/-- A command that ends in Idle. -/
theorem finish_served (ht : lifecycleKey t = lifecycleKey (setLife .idle s)) : Served c (finish code aux t) := by
  simp only [lifecycleKey, Prod.mk.injEq] at ht
  obtain ⟨hmode, hlife, -, habort, -, hstrat⟩ := ht
  obtain ⟨hrole, hheld, -⟩ := h
  exact ⟨by rwa [finish_ctl_mode, hmode], by rwa [finish_ctl_abortreq, finish_ctl_strat, habort, hstrat],
    .inr (by rw [finish_ctl_life, finish_ctl_cmdp, finish_ctl_tmo, hlife]; rfl)⟩

/-- A command that ends in Idle with a flag. -/
theorem endCommand_served : Served c (finish code aux (flag f (setLife .idle s))) := finish_served h rfl

theorem raiseError_served : Served c (raiseError e s) := by
  have hhalt : lifecycleKey (flag .err (errorHalt e (needRecovery e (latch e s)))) = lifecycleKey s :=
    (errorHalt_key e _).trans (needRecovery_key e _)
  have hs := h.of_key hhalt
  unfold raiseError errorEnd
  exact .ite hs (.ite (finish_served (flagRequest_served hs) rfl) hs)

theorem nextTxByte_served (hk : ∀ {b}, Served c (kb b s)) : Served c (nextTxByte kb s) := by
  unfold nextTxByte
  split
  · exact hk
  · exact .ite h (raiseError_served h)

theorem storeRxByte_served (hk : ∀ {u}, Served c u → Served c (k u)) : Served c (storeRxByte b more k s) :=
  .ite (.ite h (raiseError_served h)) (hk h)

/-! ## Target path -/

theorem endMessage_served : Served c (endMessage s) := by
  unfold endMessage
  split <;> exact h

theorem closeStep_served : Served c (closeStep s) := .ite (endCommand_served h) h

theorem raiseTarget_served : Served c (raiseTarget e s) := raiseError_served (.ite h h)

theorem privReadStep_served : Served c (privReadStep s) := by
  unfold privReadStep
  refine .ite ?_ h
  split
  · exact h
  · refine phy_served h fun answer => ?_
    cases answer with
    | ok => exact .ite h h
    | err k => exact raiseTarget_served h
    | _ => exact h

theorem privWriteByte_served : Served c (privWriteByte b s) := .ite (raiseError_served h) h

theorem treqStep_served (hk : ∀ {u}, Served c u → Served c (k u)) : Served c (treqStep a rnw granted code k s) := by
  unfold treqStep
  refine .ite (phy_served h fun answer => ?_) (endCommand_served h)
  cases answer with
  | ack => exact hk h
  | nack => exact endCommand_served h
  | err k => exact raiseTarget_served h
  | _ => exact h

theorem ibiEnd_served : Served c (ibiEnd s) := finish_served h (notify_key _ _)

theorem ibiDataStep_served : Served c (ibiDataStep s) := by
  unfold ibiDataStep
  split
  · exact h
  · refine phy_served h fun answer => ?_
    cases answer with
    | ok => exact .ite (ibiEnd_served h) h
    | stopped => exact ibiEnd_served h
    | err k => exact raiseTarget_served h
    | _ => exact h

theorem ibiAcked_served : Served c (ibiAcked s) := .ite (ibiEnd_served h) h

theorem targetRequestStep_served : Served c (targetRequestStep s) := by
  unfold targetRequestStep
  cases s.tgt.trq with
  | ibiData => exact .ite (ibiDataStep_served h) h
  | hjWaitDaa => exact h
  | crWaitGetacccr => exact h
  | none =>
    exact .ite h (.ite (treqStep_served h id) (.ite (treqStep_served h id)
      (.ite (treqStep_served h ibiAcked_served) h)))

theorem hotJoinAssigned_served : Served c (hotJoinAssigned s) := .ite (endCommand_served h) h

theorem hotJoinDisabled_served : Served c (hotJoinDisabled s) := .ite (endCommand_served h) h

theorem acquireRole_served : Served c (acquireRole s) := by
  have hend {u : State} (hu : Served c u) : Served c (if pending opCrReq u then requestDone .ok 0 u
      else if u.ctl.cmdp then finish .aborted (bitField u.cnt.datacnt 0 16) (setLife .idle (flagRequest u)) else u) :=
    .ite (endCommand_served hu) (.ite (finish_served (flagRequest_served hu) rfl) hu)
  exact hend (relisten_served (notify_served (h.of_role nofun rfl)))

theorem frameEvent_served : Served c (frameEvent ev s) := by
  unfold frameEvent
  cases ev with
  | stop => exact .ite (acquireRole_served h) h
  | _ => exact h

theorem targetError_served : Served c (targetError e s) := .ite (raiseError_served h) h

/-! ## CCCs in target role -/

theorem definingByte_served : Served c (definingByte b s) := .ite h h

theorem collect_served : Served c (collect b s) := .ite h h

theorem addressed_served (hk : Served c (k s)) : Served c (addressed p q k s) := .ite h (.ite h hk)

omit h in
theorem endData_served (hk : Served c (k s)) : Served c (endData p k ev s) := frameEvent_served (.ite hk hk)

theorem sendResponse_served (hk : ∀ {u}, Served c u → Served c (k u)) : Served c (sendResponse k s) := by
  unfold sendResponse
  refine phy_served h fun answer => ?_
  cases answer with
  | ok => exact .ite (hk h) h
  | err k => exact targetError_served h
  | _ => exact h

theorem broadcastCcc_served (hk : Served c (k s)) : Served c (broadcastCcc b k s) := by
  unfold broadcastCcc
  split
  · exact h
  · exact collect_served h
  · exact endData_served hk
  · exact endData_served hk
  · exact endData_served hk
  · exact h

theorem directWrite_served (hk : Served c (k s)) : Served c (directWrite b ready k s) := by
  unfold directWrite
  split
  · exact h
  · exact definingByte_served h
  · exact addressed_served h h
  · exact collect_served h
  · exact endData_served hk
  · exact endData_served hk
  · exact endData_served hk
  · exact h

theorem directRead_served (hk : ∀ {u}, Served c u → Served c (k u)) :
    Served c (directRead b ready response k s) := by
  unfold directRead
  split
  · exact h
  · exact definingByte_served h
  · exact addressed_served h h
  · exact sendResponse_served h hk
  · exact h

/-! ### Effects -/

theorem withBytes_served (hk : Served c (kbs s.tgt.cccbuf s)) : Served c (withBytes n kbs s) := .ite hk h

theorem enecEffect_served : Served c (enecEffect s) := withBytes_served h (notify_served h)

theorem disecEffect_served : Served c (disecEffect s) :=
  withBytes_served h (hotJoinDisabled_served (notify_served h))

theorem entasEffect_served {n : BitVec 2} : Served c (entasEffect n s) := withBytes_served h (notify_served h)

theorem rstdaaEffect_served : Served c (rstdaaEffect s) := withBytes_served h (notify_served h)

theorem setdasaEffect_served : Served c (setdasaEffect s) :=
  withBytes_served h (.ite (hotJoinAssigned_served (notify_served h)) h)

theorem setnewdaEffect_served : Served c (setnewdaEffect s) := withBytes_served h (.ite (notify_served h) h)

theorem setmwlEffect_served : Served c (setmwlEffect s) := withBytes_served h (notify_served h)

theorem setmrlEffect_served : Served c (setmrlEffect s) := .ite (notify_served h) h

theorem rstactEffect_served : Served c (rstactEffect s) := withBytes_served h (notify_served h)

theorem rstactDirectEffect_served : Served c (rstactDirectEffect s) :=
  withBytes_served h (.ite (notify_served h) h)

theorem getSent_served : Served c (getSent s) := notify_served h

theorem getstatusSent_served : Served c (getstatusSent s) := notify_served (getSent_served h)

/-! ### Lists and assignment -/

theorem listByte_served : Served c (listByte b s) := by
  unfold listByte
  refine .ite h (.ite (.ite h h) ?_)
  split
  · exact h
  · next t ht =>
    obtain rfl := memWrite_some ht
    exact h

theorem listCcc_served : Served c (listCcc b s) := by
  unfold listCcc
  split
  · exact notify_served h
  · exact listByte_served h
  · exact endData_served (k := id) h
  · exact endData_served (k := id) h
  · exact endData_served (k := id) h
  · exact h

theorem entdaaAddress_served : Served c (entdaaAddress a s) := .ite (hotJoinAssigned_served (notify_served h)) h

theorem execEntdaa_served : ResultServed c (execEntdaa s) := by
  refine .next ?_
  split
  · exact .ite h h
  · exact h
  · exact entdaaAddress_served h
  · exact h

theorem execRstactD_served : ResultServed c (execRstactD s) := by
  refine .next ?_
  split
  · exact h
  · exact definingByte_served h
  · exact h
  · exact h
  · exact collect_served h
  · exact endData_served (rstactDirectEffect_served h)
  · exact endData_served (rstactDirectEffect_served h)
  · exact endData_served (rstactDirectEffect_served h)
  · exact sendResponse_served h notify_served
  · exact h

theorem execEnthdr_served {hdr : BitVec 3} : ResultServed c (execEnthdr hdr s) := by
  refine .next ?_
  split <;> exact h

theorem unsupportedCode_served : Served c (unsupportedCode b s) := .ite h h

/-! ## Target requests in controller role -/

theorem requestError_served : Served c (requestError e s) :=
  .ite (raiseError_served h) (h.of_key (needRecovery_key e s))

theorem hotJoinAck_served : Served c (hotJoinAck s) := .ite (phy_served h fun _ => h) (phy_served h fun _ => h)

theorem ibiAck_served : Served c (ibiAck a s) := by
  unfold ibiAck
  split
  · exact phy_served h fun _ => h
  · exact phy_served h fun _ => .ite h h

theorem roleAck_served : Served c (roleAck a s) := by
  unfold roleAck
  split <;> exact phy_served h fun _ => h

theorem requestAck_served : Served c (requestAck a rnw s) :=
  .ite (hotJoinAck_served h) (.ite (ibiAck_served h) (roleAck_served h))

theorem ibiByte_served {i : Fin 4} {k : Nat} : Served c (ibiByte i k s) := by
  refine phy_served h fun answer => ?_
  cases answer with
  | byte b more => exact .ite h h
  | err j => exact requestError_served h
  | _ => exact h

theorem suspendFor_served {i : Fin 4} : Served c (suspendFor i s) := .ite (h.of_key rfl) h

theorem requestEnd_served : Served c (requestEnd note s) := by
  cases note with
  | none => exact h
  | ibi i => exact notify_served (suspendFor_served h)
  | crreq => exact notify_served h
  | hj => exact notify_served h

theorem requestStep_served : Served c (requestStep s) := by
  unfold requestStep
  cases s.work.request with
  | idle => exact h
  | ack a rnw => exact requestAck_served h
  | data i k => exact ibiByte_served h
  | stop n => exact phy_served h fun _ => requestEnd_served h

/-! ## The sequencer -/

theorem fetchWord_served : Served c (fetchWord w p s) := .ite h (.ite h (raiseError_served h))

theorem messageStart_served {next : Bool → Micro} : Served c (messageStart next s) := by
  unfold messageStart
  refine .ite (phy_served h fun _ => h) (phy_served h fun answer => ?_)
  cases answer <;> exact h

theorem sendHeader_served (hk : ∀ {u}, Served c u → Served c (k u)) : Served c (sendHeader k s) := by
  unfold sendHeader
  refine phy_served h fun answer => ?_
  cases answer with
  | ack => exact hk h
  | nack => exact raiseError_served h
  | err j => exact raiseError_served h
  | _ => exact h

theorem sendAddress_served (hk : ∀ {u}, Served c u → Served c (k u)) : Served c (sendAddress a rnw k s) := by
  unfold sendAddress
  refine phy_served h fun answer => ?_
  cases answer with
  | ack => exact hk h
  | nack => exact raiseError_served h
  | err j => exact raiseError_served h
  | _ => exact h

theorem sendByte_served (hk : ∀ {u}, Served c u → Served c (k u)) : Served c (sendByte b k s) := by
  unfold sendByte
  refine phy_served h fun answer => ?_
  cases answer with
  | ok => exact hk h
  | err j => exact raiseError_served h
  | _ => exact h

theorem toData_served (hk : Served c (k s)) : Served c (toData m k s) := .ite hk h

theorem afterByte_served (hk : Served c (k s)) : Served c (afterByte m k s) := .ite hk h

theorem writeData_served (hk : ∀ {u}, Served c u → Served c (k u)) : Served c (writeData p m k s) := by
  refine nextTxByte_served h (phy_served h fun answer => ?_)
  cases answer with
  | ok => exact afterByte_served h (hk h)
  | nack => exact raiseError_served h
  | err j => exact raiseError_served h
  | _ => exact h

theorem readStored_served (hk : ∀ {u}, Served c u → Served c (k u)) : Served c (readStored p m more k s) :=
  .ite (hk h) (.ite h (hk h))

theorem readData_served (hk : ∀ {u}, Served c u → Served c (k u)) : Served c (readData p m k s) := by
  have hstored {more : Bool} {u : State} (hu : Served c u) : Served c (readStored p m more k u) :=
    readStored_served hu hk
  unfold readData
  split
  · exact storeRxByte_served h hstored
  · refine phy_served h fun answer => ?_
    cases answer with
    | byte b more => exact storeRxByte_served h hstored
    | err j => exact raiseError_served h
    | _ => exact h

theorem roleToTarget_served : Served c (roleToTarget s) := .ite (relisten_served (h.of_role nofun rfl)) h

theorem completeTransfer_served : Served c (completeTransfer s) := roleToTarget_served (endCommand_served h)

theorem afterWord_served : Served c (afterWord s) := .ite (.ite (completeTransfer_served h) h) h

theorem endWord_served : Served c (endWord p s) :=
  .ite (.ite (completeTransfer_served h) h) (.ite (raiseError_served h)
    (.ite (phy_served h fun _ => afterWord_served h) (afterWord_served h)))

theorem cccSent_served : Served c (cccSent b s) := .ite h h

theorem cccAddr_served : Served c (cccAddr b m s) := by
  unfold cccAddr
  cases s.work.micro with
  | start => exact messageStart_served h
  | hdr => exact sendHeader_served h id
  | code => exact sendByte_served h fun hu => toData_served hu (cccSent_served hu)
  | _ => exact h

theorem execCwCcc_served {mend arb : Bool} : ResultServed c (execCwCcc mend arb b m s) := by
  refine .next ?_
  cases s.seq.phase with
  | idle => exact h
  | fetch => exact fetchWord_served h
  | addr => exact .ite h (cccAddr_served h)
  | data => exact writeData_served h cccSent_served
  | fin => exact endWord_served h

theorem privAddr_served : Served c (privAddr p a rnw m s) := by
  unfold privAddr
  cases s.work.micro with
  | start => exact messageStart_served h
  | hdr => exact sendHeader_served h id
  | rstart => exact phy_served h fun _ => h
  | addr => exact sendAddress_served h fun hu => toData_served hu hu
  | _ => exact h

theorem privData_served : Served c (privData p rnw m s) :=
  .ite (readData_served h id) (writeData_served h id)

theorem execCwPriv_served {mend arb : Bool} : ResultServed c (execCwPriv mend arb a rnw m s) := by
  refine .next ?_
  cases s.seq.phase with
  | idle => exact h
  | fetch => exact fetchWord_served h
  | addr => exact .ite h (privAddr_served h)
  | data => exact privData_served h
  | fin => exact endWord_served h

theorem execCwI2c_served {mend arb : Bool} : ResultServed c (execCwI2c mend arb a rnw m s) := by
  refine .next ?_
  cases s.seq.phase with
  | idle => exact h
  | fetch => exact fetchWord_served h
  | addr => exact .ite h (privAddr_served h)
  | data => exact privData_served h
  | fin => exact endWord_served h

theorem directDone_served : Served c (directDone a rnw s) :=
  .ite (.ite (raiseError_served h) (.ite h (raiseError_served h))) h

theorem directAddr_served : Served c (directAddr a rnw m s) := by
  unfold directAddr
  cases s.work.micro with
  | start => exact phy_served h fun _ => h
  | addr => exact sendAddress_served h fun hu => toData_served hu (directDone_served hu)
  | _ => exact h

theorem directData_served : Served c (directData a rnw m s) :=
  .ite (readData_served h directDone_served) (writeData_served h directDone_served)

theorem execCwDirect_served {mend arb : Bool} : ResultServed c (execCwDirect mend arb a rnw m s) := by
  refine .next ?_
  cases s.seq.phase with
  | idle => exact h
  | fetch => exact fetchWord_served h
  | addr => exact .ite h (directAddr_served h)
  | data => exact directData_served h
  | fin => exact endWord_served h

/-! ## One-shot commands -/

theorem oneShotStart_served {next : Micro} : Served c (oneShotStart next s) := by
  unfold oneShotStart
  refine phy_served h fun answer => ?_
  cases answer <;> exact h

theorem oneShotDone_served : Served c (oneShotDone aux s) := endCommand_served (s := goto .start s) h

theorem setdasaStep_served : Served c (setdasaStep s) := by
  unfold setdasaStep
  cases s.work.micro with
  | start => exact oneShotStart_served h
  | hdr => exact sendHeader_served h id
  | code => exact sendByte_served h id
  | rstart => exact phy_served h fun _ => h
  | addr =>
    refine phy_served h fun answer => ?_
    cases answer with
    | nack => exact raiseError_served h
    | err j => exact raiseError_served h
    | _ => exact h
  | data => exact sendByte_served h id
  | stop => exact phy_served h fun _ => oneShotDone_served h
  | _ => exact h

theorem probeAddr_served {next : Micro} : Served c (probeAddr a next s) := by
  unfold probeAddr
  refine phy_served h fun answer => ?_
  cases answer with
  | err j => exact raiseError_served h
  | _ => exact h

theorem probeTrialEnd_served : Served c (probeTrialEnd s) :=
  .ite (oneShotDone_served h) (.ite (raiseError_served h) h)

theorem probeStep_served : Served c (probeStep s) := by
  unfold probeStep
  cases s.work.micro with
  | start => exact oneShotStart_served h
  | hdr => exact probeAddr_served h
  | rstart => exact phy_served h fun _ => h
  | addr => exact probeAddr_served h
  | stop => exact phy_served h fun _ => probeTrialEnd_served h
  | _ => exact h

theorem recoverStep_served : Served c (recoverStep s) :=
  phy_served h fun _ => oneShotDone_served (h.of_key rfl)

/-! ## Dynamic address assignment -/

theorem roundStop_served : Served c (roundStop s) := phy_served h fun _ => endCommand_served h

theorem daaHeader_served {next : Micro} : Served c (daaHeader rnw next s) := by
  unfold daaHeader
  refine phy_served h fun answer => ?_
  cases answer with
  | err j => exact raiseError_served h
  | _ => exact h

theorem rstdaaStep_served : Served c (rstdaaStep s) := by
  unfold rstdaaStep
  cases s.work.micro with
  | start => exact oneShotStart_served h
  | hdr => exact daaHeader_served h
  | code => exact sendByte_served h id
  | stop => exact phy_served h fun _ => h
  | quit => exact roundStop_served h
  | _ => exact h

theorem entdaaStep_served : Served c (entdaaStep s) := by
  unfold entdaaStep
  cases s.work.micro with
  | start => exact oneShotStart_served h
  | hdr => exact daaHeader_served h
  | code => exact sendByte_served h id
  | quit => exact roundStop_served h
  | _ => exact h

theorem loopStart_served : Served c (loopStart s) := .ite h (.ite (roundStop_served h) (phy_served h fun _ => h))

theorem loopStep_served : Served c (loopStep s) := by
  unfold loopStep
  cases s.work.micro with
  | start => exact loopStart_served h
  | addr => exact daaHeader_served h
  | data =>
    refine phy_served h fun answer => ?_
    cases answer with
    | err j => exact raiseError_served h
    | _ => exact h
  | quit => exact roundStop_served h
  | _ => exact h

theorem storePayload_served (ht : storePayload s = some t) : Served c t := by
  unfold storePayload at ht
  split at ht
  · cases ht
  · next u hu =>
    obtain rfl := Option.some.inj ht
    obtain rfl := memWrite_some hu
    exact h

theorem reportPayload_served (hk : ∀ {u}, Served c u → Served c (k u)) : Served c (reportPayload k s) := by
  unfold reportPayload
  refine .ite ?_ (hk h)
  split
  · exact raiseError_served h
  · next t ht =>
    have hs := storePayload_served h ht
    exact hk hs

theorem offerAddress_served : Served c (offerAddress a s) := by
  unfold offerAddress
  dsimp only
  cases s.env.params.daaTiming with
  | preAssign => exact reportPayload_served h id
  | postAssign => exact h

theorem addressTaken_served : Served c (addressTaken s) := by
  unfold addressTaken
  dsimp only
  cases s.env.params.daaTiming with
  | preAssign => exact h
  | postAssign => exact reportPayload_served h id

theorem assignStep_served : Served c (assignStep s) := by
  unfold assignStep
  cases s.work.micro with
  | start =>
    dsimp only
    split
    · exact raiseError_served h
    · exact offerAddress_served h
  | data =>
    refine phy_served h fun answer => ?_
    cases answer with
    | ack => exact addressTaken_served h
    | nack => exact raiseError_served h
    | err j => exact raiseError_served h
    | _ => exact h
  | _ => exact h

theorem daaStep_served : Served c (daaStep s) := by
  unfold daaStep
  cases s.daa.phase with
  | idle => exact h
  | rstdaa => exact rstdaaStep_served h
  | entdaa => exact entdaaStep_served h
  | loop => exact loopStep_served h
  | assign => exact assignStep_served h

/-! ## Every control word and every CCC -/

theorem exec_served {i : Instr} (hi : i.space ≠ .command) : ResultServed c (exec i s) := by
  cases i with
  | cwCcc mend arb code n => exact execCwCcc_served h
  | cwPriv mend arb a rnw n => exact execCwPriv_served h
  | cwI2c mend arb a rnw n => exact execCwI2c_served h
  | cwDirect mend arb a rnw n => exact execCwDirect_served h
  | enecB => exact .next (broadcastCcc_served h (enecEffect_served h))
  | disecB => exact .next (broadcastCcc_served h (disecEffect_served h))
  | entas0B => exact .next (broadcastCcc_served h (entasEffect_served h))
  | entas1B => exact .next (broadcastCcc_served h (entasEffect_served h))
  | entas2B => exact .next (broadcastCcc_served h (entasEffect_served h))
  | entas3B => exact .next (broadcastCcc_served h (entasEffect_served h))
  | rstdaaB => exact .next (broadcastCcc_served h (rstdaaEffect_served h))
  | entdaa => exact execEntdaa_served h
  | deftgts => exact .next (listCcc_served h)
  | setmwlB => exact .next (broadcastCcc_served h (setmwlEffect_served h))
  | setmrlB => exact .next (broadcastCcc_served h (setmrlEffect_served h))
  | rstactB => exact .next (broadcastCcc_served h (rstactEffect_served h))
  | defgrpa => exact .next (listCcc_served h)
  | enecD => exact .next (directWrite_served h (enecEffect_served h))
  | disecD => exact .next (directWrite_served h (disecEffect_served h))
  | entas0D => exact .next (directWrite_served h (entasEffect_served h))
  | entas1D => exact .next (directWrite_served h (entasEffect_served h))
  | entas2D => exact .next (directWrite_served h (entasEffect_served h))
  | entas3D => exact .next (directWrite_served h (entasEffect_served h))
  | rstdaaD => exact .next (directWrite_served h (rstdaaEffect_served h))
  | setdasaCcc => exact .next (directWrite_served h (setdasaEffect_served h))
  | setnewda => exact .next (directWrite_served h (setnewdaEffect_served h))
  | setmwlD => exact .next (directWrite_served h (setmwlEffect_served h))
  | setmrlD => exact .next (directWrite_served h (setmrlEffect_served h))
  | getmwl => exact .next (directRead_served h getSent_served)
  | getmrl => exact .next (directRead_served h getSent_served)
  | getpid => exact .next (directRead_served h getSent_served)
  | getbcr => exact .next (directRead_served h getSent_served)
  | getdcr => exact .next (directRead_served h getSent_served)
  | getstatus => exact .next (directRead_served h getstatusSent_served)
  | getacccr => exact .next (directRead_served h getSent_served)
  | rstactD => exact execRstactD_served h
  | enthdr hdr => exact execEnthdr_served h
  | _ => exact absurd rfl hi

/-! ## ENGINE and MOVER -/

omit h in
theorem decoded_not_command {sp : Space} {bs : List Byte} {r : Instr × List Byte} (hd : decode sp bs = .ok r)
    (hsp : sp ≠ .command) : r.1.space ≠ .command := decode_space hd ▸ hsp

theorem fetchStep_served : ResultServed c (fetchStep s) := by
  refine .ite (.next h) ?_
  split
  · split
    · next hd => exact exec_served h (decoded_not_command hd nofun)
    · exact .next (fetchWord_served h)
  · exact .next (.ite h (.ite (raiseError_served h) h))

theorem sequencerStep_served : ResultServed c (sequencerStep s) := by
  unfold sequencerStep
  split
  · exact .next h
  · exact fetchStep_served h
  · split
    · next hd => exact exec_served h (decoded_not_command hd nofun)
    · exact .next h

theorem controllerStep_served : ResultServed c (controllerStep s) :=
  .ite (.next (requestStep_served h)) (.ite (.next (daaStep_served h)) (.ite (sequencerStep_served h)
    (.ite (.next (setdasaStep_served h)) (.ite (.next (probeStep_served h)) (.ite (.next (recoverStep_served h))
      (.next h))))))

theorem cccStep_served (hk : Served c (k s)) : ResultServed c (cccStep k s) := by
  unfold cccStep
  split
  · next hd => exact exec_served h (decoded_not_command hd nofun)
  · exact .next hk

theorem targetStep_served {u : EngineUnit} : ResultServed c (targetStep u s) := by
  unfold targetStep
  cases u with
  | main => exact .next h
  | drive =>
    dsimp only
    cases s.tgt.phase with
    | directR => exact cccStep_served (k := id) h h
    | privR => exact .next (privReadStep_served h)
    | _ => exact .next h
  | request => exact .next (targetRequestStep_served h)
  | close => exact .next (closeStep_served h)

theorem frameTurn_served : ResultServed c (frameTurn ev s) := by
  unfold frameTurn
  cases s.tgt.phase with
  | cccData => exact cccStep_served h (frameEvent_served h)
  | directW => exact cccStep_served h (frameEvent_served h)
  | _ => exact .next (frameEvent_served (endMessage_served h))

theorem matchAddr_served : ResultServed c (matchAddr a rnw s) :=
  .ite (.next h) (.ite (.next h) (.ite (cccStep_served h h) (.ite (.next h) (.ite (.next h) (.next h)))))

theorem codeByte_served : ResultServed c (codeByte b s) := by
  unfold codeByte
  split
  · next hd => exact exec_served h (decoded_not_command hd nofun)
  · exact .next h
  · exact .next (unsupportedCode_served h)

theorem byteTurn_served : ResultServed c (byteTurn b s) := by
  unfold byteTurn
  cases s.tgt.phase with
  | ccc => exact codeByte_served h
  | cccData => exact cccStep_served (k := id) h h
  | directW => exact cccStep_served (k := id) h h
  | direct => exact .ite (.next h) (cccStep_served h (definingByte_served h))
  | privW => exact .next (privWriteByte_served h)
  | _ => exact .next h

theorem targetEvent_served : ResultServed c (targetEvent ev s) := by
  cases ev with
  | start => exact .ite (.next h) (frameTurn_served h)
  | rstart => exact .ite (.next h) (frameTurn_served h)
  | stop => exact frameTurn_served h
  | addr a rnw => exact .ite (matchAddr_served h) (.next h)
  | byte b => exact byteTurn_served h
  | daaSr => exact .ite (exec_served h nofun) (.next h)
  | da a => exact .ite (exec_served h nofun) (.next h)
  | resetPattern => exact .next (.ite h (notify_served h))
  | wakeup => exact .next (.ite h (notify_served h))
  | err k => exact .next (.ite (targetError_served h) h)
  | treq a rnw => exact .next h

theorem roleStep_served {u : EngineUnit} : ResultServed c (roleStep u s) := by
  unfold roleStep
  cases s.ctl.mode with
  | none => exact .next h
  | controller => exact controllerStep_served h
  | target => exact targetStep_served h

end

/-! ## Results that keep the lifecycle -/

/-- Every next state of the result has its lifecycle in order. -/
def ResultLifecycleOk (r : Result) : Prop := ∀ t, r = .next t → LifecycleOk t

theorem ResultLifecycleOk.next {t : State} (h : LifecycleOk t) : ResultLifecycleOk (.next t) := by
  rintro _ ⟨⟩
  exact h

theorem ResultLifecycleOk.refused (c : Refusal) : ResultLifecycleOk (.refused c) := by
  rintro _ ⟨⟩

theorem ResultLifecycleOk.ite {r r' : Result} {p : Prop} [Decidable p] (h : p → ResultLifecycleOk r)
    (h' : ¬p → ResultLifecycleOk r') : ResultLifecycleOk (if p then r else r') := by
  split
  · exact h ‹p›
  · exact h' ‹¬p›

theorem LifecycleOk.ite {s t : State} {p : Prop} [Decidable p] (hs : p → LifecycleOk s) (ht : ¬p → LifecycleOk t) :
    LifecycleOk (if p then s else t) := by
  split
  · exact hs ‹p›
  · exact ht ‹¬p›

theorem resetBlock_lifecycleOk (s : State) : LifecycleOk (resetBlock s) := by
  simp [LifecycleOk, resetBlock, State.reset, Control.reset]

theorem lifeOfDirmix_busy (d : Byte) : lifeBusy (lifeOfDirmix d) = true := by
  unfold lifeOfDirmix
  split
  · rfl
  · split <;> rfl

theorem initMode_ne_none {sub : Byte} {m : Mode} (hm : initMode sub = some m) : m ≠ .none := by
  unfold initMode at hm
  split at hm
  · cases hm
    nofun
  · split at hm <;> cases hm
    nofun

section
variable {s t : State} (h : LifecycleOk s)
include h

theorem LifecycleOk.mode_ne_none_of_life (hl : s.ctl.life ≠ .reset) : s.ctl.mode ≠ .none := by
  obtain ⟨hmode, -⟩ := h
  exact fun hm => hl (hmode.1 hm)

theorem LifecycleOk.mode_ne_none_of_abortreq (ha : s.ctl.abortreq = true) : s.ctl.mode ≠ .none := by
  refine h.mode_ne_none_of_life fun hl => ?_
  obtain ⟨-, -, habort, -⟩ := h
  rw [habort.1 ha] at hl
  cases hl

theorem ResultServed.lifecycleOk {r : Result} (hm : s.ctl.mode ≠ .none) (ha : s.ctl.abortreq = false)
    (hr : ResultServed s.ctl r) : ResultLifecycleOk r := fun t ht => (hr t ht).lifecycleOk hm ha h

/-! ## The host's commands -/

/-- A class-L command is accepted in Idle alone, and starts in a busy state (spec/41_controller.md R281). -/
theorem accepted_lifecycleOk {m : Mode} {l : Life} {bus : Bool} {strats : List Strat} {st : Strat} {op : Byte}
    {w : Word} (hg : gate m .idle bus strats st s = none) (hm : m ≠ .none) (hl : lifeBusy l = true)
    (ht : lifecycleKey t = lifecycleKey (setLife l (accept op st w s))) : LifecycleOk t := by
  obtain ⟨hmode, -, hlife, -⟩ := gate_none hg
  obtain ⟨-, -, habort, -⟩ := h
  have hreset : l ≠ .reset := by rintro rfl; exact absurd hl (by decide)
  have hidle : l ≠ .idle := by rintro rfl; exact absurd hl (by decide)
  have habort' : l ≠ .abort := by rintro rfl; exact absurd hl (by decide)
  refine lifecycleOk_of_key ht ?_
  simp +contextual [LifecycleOk, hmode, hm, hlife, habort, hreset, hidle, habort']

/-- A class-L command is rejected, which leaves the lifecycle alone, or accepted. -/
theorem longCommand_lifecycleOk {m : Mode} {l : Life} {bus : Bool} {strats : List Strat} {st : Strat} {op : Byte}
    {w : Word} {ok : Bool} {act : State → State} (hm : m ≠ .none) (hl : lifeBusy l = true)
    (ht : lifecycleKey (act s) = lifecycleKey (setLife l (accept op st w s))) :
    LifecycleOk (longCommand (gate m .idle bus strats st s) ok act s) := by
  rcases longCommand_cases (gate m .idle bus strats st s) ok act s with ⟨code, e⟩ | ⟨hg, -, e⟩
  · rw [e]; exact h
  · rw [e]; exact accepted_lifecycleOk h hg hm hl ht

theorem endWrites_lifecycleOk {ws : List (Nat × List Byte)} : LifecycleOk (endWrites (memWrites s ws)) := by
  unfold endWrites
  rw [memWrites_eq]
  exact h

theorem build_lifecycleOk {ccc : Bool} {sub : Byte} : LifecycleOk (build ccc sub s) := by
  unfold build
  split
  · exact h
  · exact endWrites_lifecycleOk h

theorem execStart_lifecycleOk (st : Strat) (sub : Byte) : ResultLifecycleOk (execStart st sub s) := by
  refine .next ?_
  split
  · exact h
  · next hg =>
    split
    · exact h
    · exact accepted_lifecycleOk h hg nofun (lifeOfDirmix_busy _) rfl

theorem execSetdasa_lifecycleOk (st : Strat) (sub : Byte) : ResultLifecycleOk (execSetdasa st sub s) := by
  refine .next ?_
  split
  · exact h
  · next hg =>
    exact .ite (fun _ => h) fun _ => .ite (fun _ => h) fun _ => accepted_lifecycleOk h hg nofun (l := .tx) rfl rfl

theorem execBusRecover_lifecycleOk (st : Strat) (sub : Byte) : ResultLifecycleOk (execBusRecover st sub s) := by
  refine .next ?_
  split
  · exact h
  · next hg => exact accepted_lifecycleOk h hg nofun (l := .tx) rfl rfl

theorem execInit_lifecycleOk (st : Strat) (sub : Byte) : ResultLifecycleOk (execInit st sub s) := by
  refine .next ?_
  split
  · exact h
  · exact h
  · next m _ hm => simp [LifecycleOk, initAccept, Control.reset, initMode_ne_none hm]

theorem execAbort_lifecycleOk (st : Strat) (sub : Byte) : ResultLifecycleOk (execAbort st sub s) := by
  refine .next (.ite (fun hok => ?_) fun _ => h)
  simp only [abortOk, Bool.and_eq_true, bne_iff_ne] at hok
  obtain ⟨⟨⟨hmode, -⟩, hcmdp⟩, -⟩ := hok
  simp [LifecycleOk, abortAccept, hmode, hcmdp]

theorem notifyActivate_lifecycleOk : LifecycleOk (notifyActivate s) := by
  unfold notifyActivate
  dsimp only
  split <;> exact h

theorem execGetCccInfo_lifecycleOk (st : Strat) (sub : Byte) : ResultLifecycleOk (execGetCccInfo st sub s) := by
  refine .next (.ite (fun _ => h) fun _ => ?_)
  split
  · exact h
  · exact .ite (fun _ => h) fun _ => h

/-- Every host command keeps the lifecycle. -/
theorem exec_lifecycleOk {i : Instr} (hi : i.space = .command) : ResultLifecycleOk (exec i s) := by
  cases i with
  | ctxReset st sub => exact .next (.ite (fun _ => endWrites_lifecycleOk h) fun _ => h)
  | ctxBind st sub => exact .next (.ite (fun _ => endWrites_lifecycleOk h) fun _ => h)
  | buildPrivate st sub => exact .next (build_lifecycleOk h)
  | buildCcc st sub => exact .next (build_lifecycleOk h)
  | decodePayload st sub => exact .next h
  | init st sub => exact execInit_lifecycleOk h st sub
  | deinit st sub => exact .next (.ite (fun _ => resetBlock_lifecycleOk s) fun _ => h)
  | start st sub => exact execStart_lifecycleOk h st sub
  | abort st sub => exact execAbort_lifecycleOk h st sub
  | daa st sub => exact .next (longCommand_lifecycleOk h nofun (l := .daa) rfl rfl)
  | setdasa st sub => exact execSetdasa_lifecycleOk h st sub
  | probe st sub => exact .next (longCommand_lifecycleOk h nofun (l := .tx) rfl rfl)
  | busRecover st sub => exact execBusRecover_lifecycleOk h st sub
  | tgtTx st sub => exact .next (longCommand_lifecycleOk h nofun (l := .tx) rfl rfl)
  | tgtRx st sub => exact .next (longCommand_lifecycleOk h nofun (l := .rx) rfl rfl)
  | hjReq st sub => exact .next (longCommand_lifecycleOk h nofun (l := .tgtreq) rfl rfl)
  | crReq st sub => exact .next (longCommand_lifecycleOk h nofun (l := .tgtreq) rfl rfl)
  | ibiReq st sub => exact .next (longCommand_lifecycleOk h nofun (l := .tgtreq) rfl rfl)
  | notifyActivate st sub =>
    exact .next (.ite (fun _ => h) fun _ => .ite (fun _ => notifyActivate_lifecycleOk h) fun _ => h)
  | notifyDeactivate st sub => exact .next (.ite (fun _ => h) fun _ => .ite (fun _ => h) fun _ => h)
  | getCccInfo st sub => exact execGetCccInfo_lifecycleOk h st sub
  | _ => cases hi

/-! ## Host accesses -/

theorem hostRead_lifecycleOk {off : Byte} : LifecycleOk (hostRead off s) := by
  have hreg : LifecycleOk (readReg off s).2 := by
    unfold readReg popSfifo popRxfifo
    split
    · split <;> exact h
    split
    · split <;> exact h
    · exact h
  exact hreg

theorem pushCfifo_lifecycleOk {v : Word} : LifecycleOk (pushCfifo v s) :=
  .ite (fun _ => .ite (fun _ => h) fun _ => h) fun _ => h

theorem pushTxfifo_lifecycleOk {v : Word} : LifecycleOk (pushTxfifo v s) :=
  .ite (fun _ => .ite (fun _ => h) fun _ => h) fun _ => h

theorem writeOwnaddr_lifecycleOk {v : Word} : LifecycleOk (writeOwnaddr v s) := .ite (fun _ => h) fun _ => h

theorem writeBdt_lifecycleOk {i : Fin 4} {v : Word} : LifecycleOk (writeBdt i v s) := .ite (fun _ => h) fun _ => h

theorem writeConfig_lifecycleOk {off : Byte} {v : Word} : LifecycleOk (writeConfig off v s) := by
  unfold writeConfig
  split
  case h_4 => exact writeOwnaddr_lifecycleOk h
  case h_11 | h_12 | h_13 | h_14 => exact writeBdt_lifecycleOk h
  all_goals exact h

theorem hostWrite_lifecycleOk {off : Byte} {v : Word} : LifecycleOk (hostWrite off v s) := by
  unfold hostWrite
  split
  case h_8 => exact pushCfifo_lifecycleOk h
  case h_9 => exact pushTxfifo_lifecycleOk h
  case h_10 => exact .ite (fun _ => h) fun _ => h
  case h_11 => exact .ite (fun _ => writeConfig_lifecycleOk h) fun _ => h
  all_goals exact h

theorem writeCmd_lifecycleOk {v : Word} : ResultLifecycleOk (writeCmd v s) := by
  unfold writeCmd
  split
  · next hd => exact exec_lifecycleOk h (decode_space hd)
  · exact .next h

theorem hostTurn_lifecycleOk {x : HostAccess} : ResultLifecycleOk (hostTurn x s) := by
  cases x with
  | read off width => exact .ite (fun _ => .next (hostRead_lifecycleOk h)) fun _ => .refused _
  | write off width v =>
    exact .ite (fun _ => .ite (fun _ => writeCmd_lifecycleOk h) fun _ => .next (hostWrite_lifecycleOk h))
      fun _ => .refused _

/-! ## ENGINE, MOVER and ENV -/

omit h in
theorem initDone_lifecycleOk (hm : s.ctl.mode ≠ .none) (ha : s.ctl.abortreq = false) : LifecycleOk (initDone s) :=
  finish_idle_lifecycle _ _ hm ha rfl

omit h in
/-- Whatever the interrupted machine's step does first, the confirmation ends in Idle. -/
theorem abortTurn_lifecycleOk {u : EngineUnit} {x : PhyAnswer} (hm : s.ctl.mode ≠ .none) :
    ResultLifecycleOk (abortTurn u x s) := by
  unfold abortTurn
  cases x with
  | err k =>
    dsimp only
    split
    · next t ht =>
      have hserved : Served s.ctl (if gotError k s t then t else s) := .ite (roleStep_served (.refl s) t ht) (.refl s)
      exact .next (abortConfirm_lifecycle (hserved.role hm))
    · exact .next (abortConfirm_lifecycle hm)
  | _ => exact .next (abortConfirm_lifecycle hm)

theorem engineTurn_lifecycleOk {u : EngineUnit} {x : PhyAnswer} : ResultLifecycleOk (engineTurn u x s) := by
  refine .ite (fun ha => abortTurn_lifecycleOk (h.mode_ne_none_of_abortreq ha)) fun ha => ?_
  refine .ite (fun _ => .next h) fun hl => ?_
  have hm := h.mode_ne_none_of_life hl
  have ha' := Bool.eq_false_of_not_eq_true ha
  exact .ite (fun _ => .next (initDone_lifecycleOk hm ha'))
    fun _ => ResultServed.lifecycleOk h hm ha' (roleStep_served (.refl s))

theorem eventTurn_lifecycleOk : ResultLifecycleOk (eventTurn s) := by
  refine .ite (fun ha => .next (abortConfirm_lifecycle (h.mode_ne_none_of_abortreq ha))) fun ha => ?_
  have ha' := Bool.eq_false_of_not_eq_true ha
  split
  · exact .next h
  · dsimp only
    split
    · exact .next h
    · exact .ite (fun _ => .next h) fun _ => .next (.ite (fun _ => h) fun _ => h)
    · exact .next h
    · next hmode _ =>
      refine .ite (fun _ => .next h) fun _ => .ite (fun _ => .next h) fun _ => ?_
      exact ResultServed.lifecycleOk h (by simp [hmode]) ha' (targetEvent_served (.refl _))
    · next hmode _ _ =>
      refine .ite (fun _ => ?_) fun _ => .next h
      exact ResultServed.lifecycleOk h (by simp [hmode]) ha' (targetEvent_served (.refl _))

theorem moverM1_lifecycleOk {dmaErr : Bool} : LifecycleOk (moverM1 dmaErr s) := by
  refine .ite (fun _ => ?_) fun _ => h
  split
  · exact raiseError_lifecycle _ h
  · exact h

theorem moverM2_lifecycleOk {dmaErr : Bool} : LifecycleOk (moverM2 dmaErr s) := by
  refine .ite (fun _ => ?_) fun _ => h
  split
  · exact raiseError_lifecycle _ h
  · exact h

theorem moverM3_lifecycleOk {dmaErr : Bool} : LifecycleOk (moverM3 dmaErr s) := by
  refine .ite (fun _ => ?_) fun _ => h
  split
  · exact h
  · split
    · exact raiseError_lifecycle _ h
    · next t ht =>
      split at ht
      · cases ht
      · obtain rfl := memWrite_some ht
        exact h

theorem timeoutTurn_lifecycleOk : LifecycleOk (timeoutTurn s) := by
  refine .ite (fun hok => ?_) fun _ => h
  simp only [Bool.and_eq_true, Bool.not_eq_true'] at hok
  obtain ⟨⟨hcmdp, -⟩, ha⟩ := hok
  exact timeoutHalt_lifecycle (h.mode_ne_none hcmdp) ha

/-! ## Every step -/

theorem runTurn_lifecycleOk {x : Turn} : ResultLifecycleOk (runTurn x s) := by
  cases x with
  | host a => exact hostTurn_lifecycleOk h
  | hostMem a b => exact .next h
  | engine u a => exact engineTurn_lifecycleOk (s := setCue (.answer a) s) h
  | event => exact eventTurn_lifecycleOk h
  | mover m dmaErr =>
    cases m with
    | m1 => exact .next (moverM1_lifecycleOk h)
    | m2 => exact .next (moverM2_lifecycleOk h)
    | m3 => exact .next (moverM3_lifecycleOk h)
  | timeout => exact .next (timeoutTurn_lifecycleOk h)
  | powerOn => exact .next (resetBlock_lifecycleOk s)

theorem step_lifecycleOk : ResultLifecycleOk (step s) := by
  unfold step nextTurn
  refine .ite (fun _ => ?_) fun _ => .refused _
  split
  · exact .next h
  · next x turns _ => exact runTurn_lifecycleOk (s := { s with env.agenda := turns }) h

end

/-- Settles O9: every agent's turn keeps the lifecycle, the ENGINE's by what it may do to the pending command. -/
theorem stepKeepsLifecycle : Obligations.StepKeepsLifecycle := fun _ t hs ht => step_lifecycleOk hs t ht

end Sys2Proof.Machine
end

section
/-! SUPPORT. The host's register file but for CMD and the FIFO ports (spec/10_state.md R52–R71, R83–R86;
spec/42_fifo.md R348): which offsets accept a write and in which states, and what a read returns. -/

namespace Sys2Proof.Machine

/-- The registers that the host may write in every state, ISR apart (spec/10_state.md R84, R86). -/
def openOffsets : List Byte := [0x04, 0x08, 0x0C, 0x10, 0x20, 0x2C, 0xC0]

/-- The registers that the host may write in INIT and IDLE alone (spec/10_state.md R84, R86). -/
def configOffsets : List Byte :=
  [0x38, 0x58, 0x5C, 0x60, 0x64, 0x68, 0x6C, 0x70, 0x78, 0x8C, 0x90, 0x94, 0x98, 0x9C]

/-- The registers whose read has no side effect and is not always 0 (spec/10_state.md R84, R85). -/
def shownOffsets : List Byte :=
  [0x04, 0x08, 0x0C, 0x10, 0x14, 0x18, 0x1C, 0x20, 0x24, 0x28, 0x2C, 0x30, 0x34, 0x38, 0x3C, 0x40, 0x44, 0x58, 0x5C,
    0x60, 0x64, 0x68, 0x6C, 0x70, 0x74, 0x78, 0x7C, 0x80, 0x84, 0x88, 0x8C, 0x90, 0x94, 0x98, 0x9C, 0xA0, 0xA4, 0xA8,
    0xAC, 0xB0, 0xB4, 0xB8, 0xBC, 0xC0, 0xC4, 0xC8, 0xCC, 0xD0, 0xD4, 0xD8]

/-! ## Accesses -/

section
variable {off : Byte} (v : Word) (s : State)

theorem accessOk_of_aligned (h : off.toNat % 4 = 0) : accessOk off 4 = true := by
  have hlow : bitField off 0 2 = 0#2 := BitVec.eq_of_toNat_eq (by simpa [bitField] using h)
  simp [accessOk, hlow]

theorem hostTurn_write (ha : off.toNat % 4 = 0) (hc : off ≠ 0x00#8) :
    hostTurn (.write off 4 v) s = .next (hostWrite off v s) := by
  simp [hostTurn, accessOk_of_aligned ha, hc]

/-- A read of no FIFO port changes nothing but what the host has read. -/
theorem hostTurn_read (ha : off.toNat % 4 = 0) (hf : off ∉ [0x4C#8, 0x54#8]) :
    hostTurn (.read off 4) s = .next { s with env.hostRead := regValue s off } := by
  obtain ⟨hsfifo, hrxfifo⟩ : off ≠ 0x4C#8 ∧ off ≠ 0x54#8 := by simpa using hf
  simp [hostTurn, accessOk_of_aligned ha, hostRead, readReg, hsfifo, hrxfifo]

/-! ## Writes -/

theorem configurable_iff : configurable s = true ↔ s.ctl.life = .init ∨ s.ctl.life = .idle := by
  simp [configurable]

/-- A configuration register takes a write in INIT and IDLE alone. -/
theorem hostWrite_config (h : off ∈ configOffsets) :
    hostWrite off v s = if configurable s then writeConfig off v s else s := by
  unfold configOffsets at h
  fin_cases h <;> rfl

theorem writeConfig_of_not_config (h : off ∉ configOffsets) : writeConfig off v s = s := by
  simp only [configOffsets, List.mem_cons, ← BitVec.toNat_inj] at h
  unfold writeConfig
  split
  case h_15 => rfl
  all_goals simp_all

theorem hostWrite_of_ignored (ho : off ∉ openOffsets) (hc : off ∉ configOffsets)
    (hp : off ∉ [0x00#8, 0x30#8, 0x48#8, 0x50#8]) : hostWrite off v s = s := by
  simp only [openOffsets, List.mem_cons, ← BitVec.toNat_inj] at ho hp
  unfold hostWrite
  split
  case h_11 => rw [writeConfig_of_not_config v s hc, ite_self]
  all_goals simp_all

/-- A valid bit with an address that is no valid dynamic address is refused. -/
theorem writeOwnaddr_eq : writeOwnaddr v s =
    if v.getLsbD 7 = true ∧ validDa (bitField v 0 7) = false then latchFlag .dynaddr s
    else
      { s with
        cfg.da := bitField v 0 7
        cfg.dav := v.getLsbD 7
        cfg.sa := bitField v 8 7
        cfg.sav := v.getLsbD 15 } := by
  simp [writeOwnaddr]

theorem writeBdt_eq (i : Fin 4) : writeBdt i v s =
    if v.getLsbD 7 = true ∧ validDa (bitField v 0 7) = false then latchFlag .dynaddr s
    else { s with cfg.bdt := s.cfg.bdt.set i (bdtOf v) } := by
  simp [writeBdt]

/-! ## Reads -/

theorem regValue_of_not_shown (h : off ∉ shownOffsets) : regValue s off = 0 := by
  simp only [shownOffsets, List.mem_cons, ← BitVec.toNat_inj] at h
  unfold regValue
  split
  case h_51 => rfl
  all_goals simp_all

theorem not_cfifoFull : (!cfifoFull s) = decide (s.fifo.cfifo.length < s.env.params.cfifoDepth) := by
  simp [cfifoFull, ← decide_not]

theorem sfifo_nonempty : (!s.fifo.sfifo.isEmpty) = decide (0 < s.fifo.sfifo.length) := by
  cases s.fifo.sfifo <;> simp

theorem txReq_eq : txReq s = decide (thrTx s ≤ txFree s ∨
    (0 < s.cnt.txrem.toNat ∧ s.cnt.txrem.toNat < thrTx s ∧ s.cnt.txrem.toNat ≤ txFree s)) := by
  simp [txReq, Bool.and_assoc]

theorem rxReq_eq : rxReq s = decide (thrRx s ≤ s.fifo.rxfifo.length ∨
    (0 < s.fifo.rxfifo.length ∧ s.fifo.rxfifo.length = s.cnt.rxrem.toNat)) := by
  simp [rxReq]

end

theorem clearIsr_isr_getLsbD (v : Word) (s : State) {n : Nat} (h : n < 32) :
    (clearIsr v s).rep.isr.getLsbD n = (s.rep.isr.getLsbD n && !v.getLsbD n) := by
  simp [clearIsr, h]

theorem clearIsr_slots (v : Word) (s : State) (i : Fin 11) : (clearIsr v s).snap.slots[i] =
    { s.snap.slots[i] with pend := s.snap.slots[i].pend && !v.getLsbD (16 + i.val) } := by
  simp [clearIsr]

theorem openOffsets_write : ∀ o ∈ openOffsets, o.toNat % 4 = 0 ∧ o ≠ 0x00#8 := by decide

theorem configOffsets_write : ∀ o ∈ configOffsets, o.toNat % 4 = 0 ∧ o ≠ 0x00#8 := by decide

theorem shownOffsets_read : ∀ o ∈ shownOffsets, o.toNat % 4 = 0 ∧ o ∉ [0x4C#8, 0x54#8] := by decide

/-- The keys of a table that is computed from its keys. -/
theorem keys_of_pairs {α β : Type} (f : α → β) (keys : List α) : (keys.map fun k => (k, f k)).map Prod.fst = keys := by
  rw [List.map_map]
  exact List.map_id keys

/-- Settles O23: the tables of the statement are `hostWrite`, `writeConfig` and `regValue` at the offsets they list. -/
theorem writeOneToClear : Obligations.WriteOneToClear := by
  intro v off s da badDa entry bdt config always life mode entryWord txDepth thrTx thrRx free cfnf sfne txreq rxreq
    fiforeq shown
  have halways : always = openOffsets.map fun o => (o, hostWrite o v s) := rfl
  have hconfig : config = configOffsets.map fun o => (o, writeConfig o v s) := by
    have hbdt : bdt = fun i => writeBdt i v s := funext fun i => (writeBdt_eq v s i).symm
    show [_, _, _, (_, ite _ _ _), _, _, _, _, _, _, (_, bdt 0), (_, bdt 1), (_, bdt 2), (_, bdt 3)] = _
    rw [hbdt, ← writeOwnaddr_eq]
    rfl
  have hfiforeq : fiforeq = regValue s 0x44 := by
    show _ = fifoReqWord s
    unfold fifoReqWord
    rw [not_cfifoFull, sfifo_nonempty, txReq_eq, rxReq_eq]
    rfl
  have hshown : shown = shownOffsets.map fun o => (o, regValue s o) := by
    clear_value fiforeq
    subst hfiforeq
    rfl
  rw [halways, hconfig, hshown]
  simp only [List.forall_mem_map, keys_of_pairs]
  refine ⟨fun o ho => ?_, fun o ho => ?_,
    ⟨clearIsr v s, rfl, fun n => clearIsr_isr_getLsbD v s, rfl, clearIsr_slots v s, rfl⟩,
    fun ha ho hc hp => ?_, fun o ho => ?_, fun ha hs hp => ?_⟩
  · obtain ⟨ha, h0⟩ := openOffsets_write o ho
    exact hostTurn_write v s ha h0
  · obtain ⟨ha, h0⟩ := configOffsets_write o ho
    rw [hostTurn_write v s ha h0, hostWrite_config v s ho]
    simp only [configurable_iff]
  · have h0 : off ≠ 0x00#8 := by
      rintro rfl
      simp at hp
    rw [hostTurn_write v s ha h0, hostWrite_of_ignored v s ho hc hp]
  · obtain ⟨ha, hp⟩ := shownOffsets_read o ho
    exact hostTurn_read s ha hp
  · rw [hostTurn_read s ha hp, regValue_of_not_shown s hs]

end Sys2Proof.Machine
end

section
/-! SUPPORT. The validation of a build (spec/40_builder.md R243): what it reads, and each of its checks as a proposition. -/

namespace Sys2Proof.Machine

/-! ## What a build reads -/

section
variable {s : State} {a n : Nat}

/-- An access answers its bytes exactly where all of them can be read. -/
theorem memRead_eq_some_iff {bs : List Byte} :
    memRead s a n = some bs ↔ (∀ k, k < n → readable s (byteAt s a k) = true) ∧ bytesAt s a n = bs := by
  simp [memRead]

/-- A block can be read where its first part and the rest can. -/
theorem readable_append_iff (s : State) (a j n : Nat) :
    (∀ k, k < j + n → readable s (byteAt s a k) = true) ↔
      (∀ k, k < j → readable s (byteAt s a k) = true) ∧ ∀ k, k < n → readable s (byteAt s (a + j) k) = true := by
  simp only [byteAt_add]
  constructor
  · exact fun h => ⟨fun k hk => h k (by omega), fun k hk => h (j + k) (by omega)⟩
  · rintro ⟨hfirst, hrest⟩ k hk
    by_cases hj : k < j
    · exact hfirst k hj
    · have hk' := hrest (k - j) (by omega)
      rwa [Nat.add_sub_cancel' (by omega)] at hk'

theorem readDescs_succ_eq_some_iff {ds : List Descriptor} :
    readDescs s a (n + 1) = some ds ↔
      ∃ bs r, memRead s a 8 = some bs ∧ readDescs s (a + 8) n = some r ∧ descriptorOf bs :: r = ds := by
  rw [readDescs]
  cases memRead s a 8 <;> cases readDescs s (a + 8) n <;> simp

/-- The descriptor array is the records at every 8 bytes, read exactly where all of them can be. -/
theorem readDescs_eq_some_iff_map_range {ds : List Descriptor} :
    readDescs s a n = some ds ↔
      (∀ k, k < 8 * n → readable s (byteAt s a k) = true) ∧
        (List.range n).map (fun k => descriptorOf (bytesAt s (a + 8 * k) 8)) = ds := by
  induction n generalizing a ds with
  | zero => simp [readDescs]
  | succ n ih =>
    have hrest : ∀ k, a + 8 * (k + 1) = a + 8 + 8 * k := fun k => by omega
    rw [readDescs_succ_eq_some_iff, Nat.mul_succ, Nat.add_comm (8 * n), readable_append_iff, List.range_succ_eq_map]
    simp only [memRead_eq_some_iff, ih, List.map_cons, List.map_map, Function.comp_def, Nat.succ_eq_add_one, hrest]
    constructor
    · rintro ⟨_, _, ⟨hd, rfl⟩, ⟨hr, rfl⟩, rfl⟩
      exact ⟨⟨hd, hr⟩, rfl⟩
    · rintro ⟨⟨hd, hr⟩, rfl⟩
      exact ⟨_, _, ⟨hd, rfl⟩, ⟨hr, rfl⟩, rfl⟩

/-- A list that is given element by element. -/
theorem map_range_eq_iff {α : Type} (f : Nat → α) (l : List α) :
    (List.range n).map f = l ↔ l.length = n ∧ ∀ k (h : k < l.length), l[k] = f k := by
  constructor
  · rintro rfl
    simp
  · rintro ⟨rfl, h⟩
    exact List.ext_getElem (by simp) fun k _ hk => by simp [h k hk]

/-- The descriptor array, record by record. -/
theorem readDescs_eq_some_iff {ds : List Descriptor} :
    readDescs s a n = some ds ↔
      (∀ k, k < 8 * n → readable s (byteAt s a k) = true) ∧ ds.length = n ∧
        ∀ k (h : k < ds.length), ds[k] = descriptorOf (bytesAt s (a + 8 * k) 8) := by
  rw [readDescs_eq_some_iff_map_range, map_range_eq_iff]

/-- The record of eight bytes in memory (spec/20_memory.md R140). -/
theorem descriptorOf_bytesAt (k : Nat) :
    descriptorOf (bytesAt s (a + 8 * k) 8) =
      { addr := Memory.read s.mem (byteAt s a (8 * k)), ccc := Memory.read s.mem (byteAt s a (8 * k + 1)),
        dir := Memory.read s.mem (byteAt s a (8 * k + 2)), rsvd := Memory.read s.mem (byteAt s a (8 * k + 3)),
        count := wordAt s s.mem (a + 8 * k + 4) } := rfl

/-- The bindings of a context in memory (spec/20_memory.md R145). -/
theorem bindingsOf_bytesAt :
    bindingsOf (bytesAt s a 24) =
      { ctrlBuf := wordAt s s.mem (a + 0x00), ctrlCap := wordAt s s.mem (a + 0x04),
        txBuf := wordAt s s.mem (a + 0x08), txCap := wordAt s s.mem (a + 0x0C),
        rxBuf := wordAt s s.mem (a + 0x10), rxCap := wordAt s s.mem (a + 0x14) } := rfl

/-- The bindings of a context, read exactly where all their bytes can be. -/
theorem read_bindings_iff {b : Bindings} :
    (∃ bs, memRead s a 24 = some bs ∧ bindingsOf bs = b) ↔
      (∀ k, k < 24 → readable s (byteAt s a k) = true) ∧ bindingsOf (bytesAt s a 24) = b := by
  simp only [memRead_eq_some_iff, and_assoc, exists_and_left, exists_eq_left']

end

/-! ## The mode byte and the arguments -/

theorem aligned4_iff (w : Word) : aligned4 w = true ↔ w.toNat % 4 = 0 := by
  rw [aligned4, beq_iff_eq, ← BitVec.toNat_inj]
  simp [bitField]

theorem isCcc_iff (c : MsgClass) : c.isCcc = true ↔ c = .cccDirect ∨ c = .cccBroadcast := by
  cases c <;> simp [MsgClass.isCcc]

/-- CLASS is the value of bits 1:0. -/
theorem msgClassOf_eq (sub : Byte) :
    msgClassOf sub =
      if bitField sub 0 2 = 0 then .privateI3c
      else if bitField sub 0 2 = 1 then .legacyI2c
      else if bitField sub 0 2 = 2 then .cccDirect
      else .cccBroadcast := by
  revert sub; decide

theorem modeLegal_iff (sub : Byte) :
    modeLegal sub = true ↔
      bitField sub 5 3 = 0 ∧ (¬(modeByteOf sub).cls.isCcc = true → (modeByteOf sub).db = false) ∧
        ((modeByteOf sub).cls.isCcc = true → (modeByteOf sub).arb = false) := by
  have hhigh : sub >>> 5 = 0#8 ↔ bitField sub 5 3 = 0 := by revert sub; decide
  rw [modeLegal, Bool.and_eq_true, beq_iff_eq, hhigh]
  cases (modeByteOf sub).cls.isCcc <;> simp

/-- Checks 1 to 3: the two addresses, the count, the mode byte and its class. -/
theorem argsOk_iff (ccc : Bool) (sub : Byte) (ctx desc n : Word) :
    argsOk ccc sub ctx desc n = true ↔
      (ctx.toNat % 4 = 0 ∧ desc.toNat % 4 = 0) ∧
        (0 < n.toNat ∧ wordsFor (modeByteOf sub).cls n.toNat ≤ 0xFFFF) ∧
          modeLegal sub = true ∧ (ccc = true ↔ (modeByteOf sub).cls.isCcc = true) := by
  have hpos : n ≠ 0#32 ↔ 0 < n.toNat := by rw [Nat.pos_iff_ne_zero, Ne, Ne, ← BitVec.toNat_inj]; rfl
  have hclass : (msgClassOf sub).isCcc = ccc ↔ (ccc = true ↔ (modeByteOf sub).cls.isCcc = true) := by
    rw [← Bool.eq_iff_iff, eq_comm]
    rfl
  simp only [argsOk, Bool.and_eq_true, aligned4_iff, bne_iff_ne, hpos, decide_eq_true_eq, beq_iff_eq, and_assoc,
    ← hclass]
  rfl

/-! ## The descriptors -/

section
variable {m : ModeByte} {d : Descriptor} {ds : List Descriptor}

/-- The form of a descriptor, in the words of check 4. -/
def DescForm (d : Descriptor) : Prop :=
  d.addr.toNat < 0x80 ∧ d.rsvd = 0 ∧ d.dir.toNat ≤ 1 ∧ d.count.toNat ≤ 0xFFFF

/-- A descriptor of BUILD_PRIVATE, in the words of check 5. -/
def DescPrivate (m : ModeByte) (d : Descriptor) : Prop :=
  d.ccc = 0 ∧ (m.cls = .privateI3c → validDa (bitField d.addr 0 7) = true) ∧ (m.cls = .legacyI2c → d.addr ≠ 0x7E)

/-- A CCC descriptor, in the words of check 6. -/
def DescCcc (m : ModeByte) (d : Descriptor) : Prop :=
  (0x80 ≤ d.ccc.toNat ↔ m.cls = .cccDirect) ∧ d.ccc ≠ 0x07 ∧ ¬(0x20 ≤ d.ccc.toNat ∧ d.ccc.toNat ≤ 0x27) ∧
    (m.cls = .cccBroadcast → d.dir = 0) ∧
    (m.cls = .cccDirect → if d.ccc = 0x87 then d.addr ≠ 0x7E else validDa (bitField d.addr 0 7) = true) ∧
    (m.db = true → d.count ≠ 0)

theorem descFormOk_iff : descFormOk d = true ↔ DescForm d := by
  have hbit : (!d.addr.getLsbD 7) = true ↔ d.addr.toNat < 0x80 := by
    generalize d.addr = v
    revert v
    decide
  simp only [descFormOk, Bool.and_eq_true, hbit, beq_iff_eq, decide_eq_true_eq, and_assoc]
  rfl

/-- DIR is 0 or 1. -/
theorem descReads_eq_false_iff (hdir : d.dir.toNat ≤ 1) : descReads d = false ↔ d.dir = 0 := by
  rw [descReads, beq_eq_false_iff_ne, Ne, ← BitVec.toNat_inj, ← BitVec.toNat_inj]
  simp only [BitVec.reduceToNat]
  omega

/-- Where bit 7 of ADDR is 0, its seven address bits are the whole byte. -/
theorem descAddr_eq_broadcastAddr_iff (haddr : d.addr.toNat < 0x80) :
    descAddr d = broadcastAddr ↔ d.addr = 0x7E := by
  unfold descAddr
  generalize d.addr = v at haddr ⊢
  revert v
  decide

theorem descPrivateOk_iff (hcls : m.cls.isCcc = false) (haddr : d.addr.toNat < 0x80) :
    descPrivateOk m d = true ↔ DescPrivate m d := by
  rw [DescPrivate, descPrivateOk, Bool.and_eq_true, beq_iff_eq]
  cases h : m.cls with
  | privateI3c => simp [descAddr]
  | legacyI2c => simp [descAddr_eq_broadcastAddr_iff haddr]
  | cccDirect | cccBroadcast => simp [h, MsgClass.isCcc] at hcls

/-- The codes of BUILD_CCC (spec/30_encoding.md R216). -/
theorem codeOk_iff (c : Byte) :
    codeOk m c = true ↔
      (0x80 ≤ c.toNat ↔ m.cls = .cccDirect) ∧ c ≠ 0x07 ∧ ¬(0x20 ≤ c.toNat ∧ c.toNat ≤ 0x27) := by
  have hclass : (decide (0x80 ≤ c.toNat) == (m.cls == .cccDirect)) = true ↔ (0x80 ≤ c.toNat ↔ m.cls = .cccDirect) := by
    rw [beq_iff_eq, Bool.eq_iff_iff, decide_eq_true_iff, beq_iff_eq]
  have hrange : (!(decide (0x20 ≤ c.toNat) && decide (c.toNat ≤ 0x27))) = true ↔
      ¬(0x20 ≤ c.toNat ∧ c.toNat ≤ 0x27) := by
    rw [← Bool.decide_and, ← decide_not, decide_eq_true_iff]
  rw [codeOk, Bool.and_eq_true, Bool.and_eq_true, hclass, bne_iff_ne, hrange, and_assoc]
  rfl

theorem descCccOk_iff (haddr : d.addr.toNat < 0x80) (hdir : d.dir.toNat ≤ 1) :
    descCccOk m d = true ↔ DescCcc m d := by
  have htarget : (if d.ccc = 0x87#8 then descAddr d != broadcastAddr else validDa (descAddr d)) = true ↔
      if d.ccc = 0x87 then d.addr ≠ 0x7E else validDa (bitField d.addr 0 7) = true := by
    by_cases hcode : d.ccc = 0x87#8
    · simp [hcode, descAddr_eq_broadcastAddr_iff haddr]
    · simp [hcode, descAddr]
  have hsends : (!(m.cls == .cccBroadcast && descReads d)) = true ↔ (m.cls = .cccBroadcast → d.dir = 0) := by
    rw [← descReads_eq_false_iff hdir]
    simp [imp_iff_not_or]
  have hclass : ∀ x : Bool, (m.cls != .cccDirect || x) = true ↔ (m.cls = .cccDirect → x = true) := fun x => by
    cases h : m.cls == .cccDirect <;> simp_all
  have hcount : (!(m.db && d.count == 0#32)) = true ↔ (m.db = true → d.count ≠ 0) := by
    simp [imp_iff_not_or]
  simp only [DescCcc, descCccOk, Bool.and_eq_true, codeOk_iff, hsends, hclass, htarget, hcount, and_assoc]

/-- Checks 4 to 6 of all descriptors: the form, then the checks of the build's own classes. -/
theorem all_descOk_iff {ccc : Bool} (hccc : m.cls.isCcc = ccc) :
    ds.all (descOk m) = true ↔
      (∀ d ∈ ds, DescForm d) ∧ (ccc = false → ∀ d ∈ ds, DescPrivate m d) ∧ (ccc = true → ∀ d ∈ ds, DescCcc m d) := by
  simp only [List.all_eq_true, descOk, Bool.and_eq_true, forall_and, descFormOk_iff, hccc]
  refine and_congr_right fun hform => ?_
  cases ccc with
  | false =>
    have hpriv : ∀ d ∈ ds, (descPrivateOk m d = true ↔ DescPrivate m d) := fun d hd => by
      obtain ⟨haddr, -⟩ := hform d hd
      exact descPrivateOk_iff hccc haddr
    simpa using forall₂_congr hpriv
  | true =>
    have hcode : ∀ d ∈ ds, (descCccOk m d = true ↔ DescCcc m d) := fun d hd => by
      obtain ⟨haddr, -, hdir, -⟩ := hform d hd
      exact descCccOk_iff haddr hdir
    simpa using forall₂_congr hcode

/-- DIR is 0 or 1 in a descriptor of the right form. -/
theorem DescForm.dir_le_one (h : DescForm d) : d.dir.toNat ≤ 1 := by
  obtain ⟨-, -, hdir, -⟩ := h
  exact hdir

/-! ## The totals and the buffers -/

/-- The bytes of a descriptor go to the tx total where it is a write or a broadcast (spec/40_builder.md R248). -/
theorem descSends_iff (hdir : d.dir.toNat ≤ 1) : descSends m d = true ↔ d.dir = 0 ∨ m.cls = .cccBroadcast := by
  simp [descSends, descReads_eq_false_iff hdir]

theorem not_descSends_iff : descSends m d = false ↔ d.dir = 1 ∧ m.cls ≠ .cccBroadcast := by
  simp [descSends, descReads]

theorem dbn_eq (m : ModeByte) :
    dbn m = if (m.cls = .cccDirect ∨ m.cls = .cccBroadcast) ∧ m.db = true then 1 else 0 := by
  simp only [dbn, Bool.and_eq_true, isCcc_iff]

theorem txTotal_eq (hform : ∀ d ∈ ds, DescForm d) :
    txTotal m ds = (ds.map fun d => if d.dir = 0 ∨ m.cls = .cccBroadcast then d.count.toNat else dbn m).sum := by
  unfold txTotal
  congr 1
  exact List.map_congr_left fun d hd => by simp only [descSends_iff (hform d hd).dir_le_one]

theorem rxTotal_eq (m : ModeByte) (ds : List Descriptor) :
    rxTotal m ds = (ds.map fun d => if d.dir = 1 ∧ m.cls ≠ .cccBroadcast then d.count.toNat - dbn m else 0).sum := by
  unfold rxTotal
  congr 2
  funext d
  simp only [← not_descSends_iff]
  cases descSends m d <;> rfl

/-- DIRMIX of a descriptor array that is not empty (spec/40_builder.md R247). -/
theorem dirmix_eq (hform : ∀ d ∈ ds, DescForm d) (hne : ds ≠ []) :
    dirmix m ds =
      (if (∃ d ∈ ds, d.dir = 0) ∨ m.cls = .cccBroadcast then 1 else 0) |||
        (if ∃ d ∈ ds, d.dir = 1 then 2 else 0) := by
  have hsends : ds.any (descSends m) = true ↔ (∃ d ∈ ds, d.dir = 0) ∨ m.cls = .cccBroadcast := by
    obtain ⟨e, he⟩ := List.exists_mem_of_ne_nil ds hne
    rw [List.any_eq_true]
    constructor
    · rintro ⟨d, hd, h⟩
      exact ((descSends_iff (hform d hd).dir_le_one).mp h).imp_left fun h0 => ⟨d, hd, h0⟩
    · rintro (⟨d, hd, h0⟩ | hcls)
      · exact ⟨d, hd, (descSends_iff (hform d hd).dir_le_one).mpr (.inl h0)⟩
      · exact ⟨e, he, (descSends_iff (hform e he).dir_le_one).mpr (.inr hcls)⟩
  have hreads : ds.any descReads = true ↔ ∃ d ∈ ds, d.dir = 1 := by simp [descReads]
  simp only [dirmix, hsends, hreads]
  rfl

/-- A buffer is checked only where bytes need it. -/
theorem bufferOk_iff (need : Nat) (buf cap : Word) :
    bufferOk need buf cap = true ↔ (0 < need → buf ≠ 0 ∧ need ≤ cap.toNat) := by
  simp [bufferOk, imp_iff_not_or]

/-- Checks 7 and 8. -/
theorem bindingsOk_iff (b : Bindings) :
    bindingsOk m ds b = true ↔
      (b.ctrlBuf ≠ 0 ∧ b.ctrlBuf.toNat % 4 = 0 ∧ wordsFor m.cls ds.length ≤ b.ctrlCap.toNat) ∧
        (0 < txTotal m ds → b.txBuf ≠ 0 ∧ txTotal m ds ≤ b.txCap.toNat) ∧
          (0 < rxTotal m ds → b.rxBuf ≠ 0 ∧ rxTotal m ds ≤ b.rxCap.toNat) := by
  simp only [bindingsOk, Bool.and_eq_true, bne_iff_ne, aligned4_iff, decide_eq_true_eq, bufferOk_iff, and_assoc]
  rfl

end

/-! ## The validation -/

/-- A build passes where its arguments do, both blocks can be read, and what they hold passes. -/
theorem validate_eq_some_iff {ccc : Bool} {sub : Byte} {s : State} {ds : List Descriptor} {b : Bindings} :
    validate ccc sub s = some (ds, b) ↔
      argsOk ccc sub s.arg.arg0 s.arg.arg1 s.arg.arg2 = true ∧
        (∃ bs, memRead s s.arg.arg0.toNat 24 = some bs ∧ bindingsOf bs = b) ∧
          readDescs s s.arg.arg1.toNat s.arg.arg2.toNat = some ds ∧
            ds.all (descOk (modeByteOf sub)) = true ∧ bindingsOk (modeByteOf sub) ds b = true := by
  unfold validate
  cases argsOk ccc sub s.arg.arg0 s.arg.arg1 s.arg.arg2
  · simp
  cases memRead s s.arg.arg0.toNat 24
  · simp
  cases readDescs s s.arg.arg1.toNat s.arg.arg2.toNat
  · simp
  simp only [if_true, Option.ite_none_right_eq_some, Option.some.injEq, Prod.mk.injEq, Bool.and_eq_true, exists_eq_left',
    true_and]
  constructor
  · rintro ⟨h, rfl, rfl⟩
    exact ⟨rfl, rfl, h⟩
  · rintro ⟨rfl, rfl, h⟩
    exact ⟨h, rfl, rfl⟩

/-- What a build that passes has read: at least one descriptor, each of the right form. -/
theorem descriptors_of_validate {ccc : Bool} {sub : Byte} {s : State} {ds : List Descriptor} {b : Bindings}
    (h : validate ccc sub s = some (ds, b)) : ds ≠ [] ∧ ∀ d ∈ ds, DescForm d := by
  obtain ⟨hargs, -, hds, hall, -⟩ := validate_eq_some_iff.mp h
  obtain ⟨-, ⟨hpos, -⟩, -, hcls⟩ := (argsOk_iff ..).mp hargs
  obtain ⟨-, hlen, -⟩ := readDescs_eq_some_iff.mp hds
  obtain ⟨hform, -⟩ := (all_descOk_iff (Bool.eq_iff_iff.mpr hcls).symm).mp hall
  exact ⟨List.length_pos_iff.mp (hlen ▸ hpos), hform⟩

/-- Settles O28: the validation is its parts (`validate_eq_some_iff`), and each part is the check that the statement
words; the totals and DIRMIX are read off a descriptor's DIR, which the form limits to 0 and 1. -/
theorem buildValidation : Obligations.BuildValidation := by
  intro ccc sub s ds b
  rw [← msgClassOf_eq]
  intro m
  have hm : modeByteOf sub = m := rfl
  intro isCcc ctx array field desc size db tx rx
  have hisCcc : m.cls.isCcc = true ↔ isCcc := isCcc_iff m.cls
  have hbuild : (ccc = true ↔ isCcc) → m.cls.isCcc = ccc := fun h => Bool.eq_iff_iff.mpr (hisCcc.trans h.symm)
  have hdb : dbn m = db := dbn_eq m
  have htx : (∀ d ∈ ds, DescForm d) → txTotal m ds = tx := fun hform => by rw [txTotal_eq hform, hdb]
  have hrx : rxTotal m ds = rx := by rw [rxTotal_eq, hdb]
  clear_value tx rx
  refine ⟨?_, fun h => ?_⟩
  · rw [validate_eq_some_iff, argsOk_iff, modeLegal_iff, read_bindings_iff, bindingsOf_bytesAt, readDescs_eq_some_iff,
      bindingsOk_iff, hm, hisCcc, hrx]
    simp only [descriptorOf_bytesAt]
    constructor
    · rintro ⟨⟨halign, ⟨hpos, hcount⟩, ⟨hhigh, hdbBit, harbBit⟩, hclass⟩, ⟨hctx, rfl⟩,
        ⟨harray, hlen, hrecords⟩, hall, hctrl, htxBuf, hrxBuf⟩
      obtain ⟨hform, hpriv, hccc⟩ := (all_descOk_iff (hbuild hclass)).mp hall
      rw [htx hform] at htxBuf
      rw [← hlen] at hpos hcount harray
      exact ⟨halign, ⟨hlen, hpos, hcount⟩, ⟨hhigh, hdbBit, harbBit, hclass⟩, hrecords, rfl, hform, hpriv, hccc, hctrl,
        htxBuf, hrxBuf, hctx, harray⟩
    · rintro ⟨halign, ⟨hlen, hpos, hcount⟩, ⟨hhigh, hdbBit, harbBit, hclass⟩, hrecords, rfl, hform, hpriv, hccc, hctrl,
        htxBuf, hrxBuf, hctx, harray⟩
      rw [← htx hform] at htxBuf
      rw [← hlen]
      exact ⟨⟨halign, ⟨hpos, hcount⟩, ⟨hhigh, hdbBit, harbBit⟩, hclass⟩, ⟨hctx, rfl⟩, ⟨harray, rfl, hrecords⟩,
        (all_descOk_iff (hbuild hclass)).mpr ⟨hform, hpriv, hccc⟩, hctrl, htxBuf, hrxBuf⟩
  · obtain ⟨hne, hform⟩ := descriptors_of_validate h
    exact ⟨htx hform, hrx, dirmix_eq hform hne⟩

end Sys2Proof.Machine
end

section
/-! SUPPORT. The decoder and the encoder agree (spec/30_encoding.md R170, R171, R180–R182, R215): each space's decoder accepts
exactly the words that the encoder writes. -/

namespace Sys2Proof

section
variable {i : Instr} {op sub c : Byte} {st : Strat} {w : Word}

/-! ## Four bytes and a word -/

theorem decode_command_bytes32 (w : Word) (rest : List Byte) :
    decode .command (bytes32 w ++ rest) = (decodeCmd w).map (·, rest) := by
  rw [← le32_bytes32 w, bytes32_le32]
  rfl

theorem decode_control_bytes32 (w : Word) (rest : List Byte) :
    decode .control (bytes32 w ++ rest) = (decodeCw w).map (·, rest) := by
  rw [← le32_bytes32 w, bytes32_le32]
  rfl

theorem eq_ofNat_of_toNat_eq {n m : Nat} {v : BitVec n} (h : v.toNat = m) : v = BitVec.ofNat n m :=
  (BitVec.toNat_eq_nat.mp h).2

/-- A field that is 0 adds nothing to a word. -/
theorem place_zero (n lo : Nat) : place (0#n) lo = 0#32 := by simp [place]

/-! ## A write of CMD -/

theorem encode_of_commandOf (h : commandOf op st sub = some i) : encode i = bytes32 (cmdWord op st sub) := by
  unfold commandOf at h
  split at h <;> cases h
  all_goals
    next hop =>
    rw [eq_ofNat_of_toNat_eq hop]
    rfl

/-- What a write of CMD has to be: no reserved bit, a strategy, an opcode of the table. -/
theorem decodeCmd_eq_ok_iff : decodeCmd w = .ok i ↔ (bitField w 10 6 = 0#6 ∧ bitField w 24 8 = 0#8) ∧
    ∃ st, stratOf (bitField w 8 2) = some st ∧ commandOf (bitField w 0 8) st (bitField w 16 8) = some i := by
  unfold decodeCmd
  split
  · next hreserved =>
    cases stratOf (bitField w 8 2) with
    | none => simp
    | some st => cases hcmd : commandOf (bitField w 0 8) st (bitField w 16 8) <;> simp [hreserved, hcmd]
  · next hreserved => simp [hreserved]

theorem decodeCmd_cmdWord (h : commandOf op st sub = some i) : decodeCmd (cmdWord op st sub) = .ok i := by
  obtain ⟨hlow, hhigh, hstrat, hop, hsub⟩ := cmdWord_fields op st sub
  rw [decodeCmd_eq_ok_iff, hlow, hhigh, hstrat, hop, hsub]
  exact ⟨⟨rfl, rfl⟩, st, stratOf_stratBits st, h⟩

/-- The fields of R170 are all there is in a write of CMD. -/
theorem place_cmdFields (w : Word) :
    place (bitField w 24 8) 24 ||| place (bitField w 16 8) 16 ||| place (bitField w 10 6) 10 |||
      place (bitField w 8 2) 8 ||| place (bitField w 0 8) 0 = w := by
  unfold bitField place
  ext i hi
  interval_cases i <;> simp

theorem cmdWord_of_fields (hlow : bitField w 10 6 = 0#6) (hhigh : bitField w 24 8 = 0#8)
    (hstrat : stratBits st = bitField w 8 2) : cmdWord (bitField w 0 8) st (bitField w 16 8) = w := by
  have h := place_cmdFields w
  rwa [hlow, hhigh, place_zero, place_zero, BitVec.zero_or, BitVec.or_zero, ← hstrat] at h

theorem encode_of_decodeCmd (h : decodeCmd w = .ok i) : encode i = bytes32 w := by
  obtain ⟨⟨hlow, hhigh⟩, st, hstrat, hcmd⟩ := decodeCmd_eq_ok_iff.mp h
  rw [encode_of_commandOf hcmd, cmdWord_of_fields hlow hhigh (stratBits_of_stratOf hstrat)]

/-! ## A control word -/

theorem decodeCw_cccWord (mend arb : Bool) (code : Byte) (dcnt : BitVec 16) :
    decodeCw (cccWord mend arb code dcnt) = .ok (.cwCcc mend arb code dcnt) := by
  obtain ⟨hreserved, hmtype, hmend, harb, hcode, hdcnt⟩ := cccWord_fields mend arb code dcnt
  rw [decodeCw, hreserved, hmtype, hmend, harb, hcode, hdcnt]
  rfl

/-- A word with an address decodes by its MTYPE alone, and its operands are its fields. -/
theorem decodeCw_addrWord (m : BitVec 4) (mend arb : Bool) (addr : Addr7) (rnw : Bool) (dcnt : BitVec 16) :
    (m = 2#4 → decodeCw (addrWord m mend arb addr rnw dcnt) = .ok (.cwPriv mend arb addr rnw dcnt)) ∧
      (m = 3#4 → decodeCw (addrWord m mend arb addr rnw dcnt) = .ok (.cwI2c mend arb addr rnw dcnt)) ∧
      (m = 4#4 → decodeCw (addrWord m mend arb addr rnw dcnt) = .ok (.cwDirect mend arb addr rnw dcnt)) := by
  obtain ⟨hreserved, hmtype, hmend, harb, haddr, hrnw, hdcnt⟩ := addrWord_fields m mend arb addr rnw dcnt
  unfold decodeCw
  rw [hreserved, hmtype, hmend, harb, haddr, hrnw, hdcnt]
  refine ⟨?_, ?_, ?_⟩ <;> (rintro rfl; rfl)

/-- The fields of R180 are all there is in a control word. -/
theorem place_addrFields (w : Word) :
    place (bit (w.getLsbD 31)) 31 ||| place (bitField w 27 4) 27 ||| place (bit (w.getLsbD 26)) 26 |||
      place (bitField w 24 2) 24 ||| place (bitField w 17 7) 17 ||| place (bit (w.getLsbD 16)) 16 |||
      place (bitField w 0 16) 0 = w := by
  unfold bitField bit place
  ext i hi
  interval_cases i <;> simp

/-- A CCC code stands where a word with an address has the address and RNW (R180). -/
theorem place_code (w : Word) :
    place (bitField w 17 7) 17 ||| place (bit (w.getLsbD 16)) 16 = place (bitField w 16 8) 16 := by
  unfold bitField bit place
  ext i hi
  interval_cases i <;> simp

theorem addrWord_of_fields {m : BitVec 4} (hreserved : bitField w 24 2 = 0#2) (hmtype : bitField w 27 4 = m) :
    addrWord m (w.getLsbD 31) (w.getLsbD 26) (bitField w 17 7) (w.getLsbD 16) (bitField w 0 16) = w := by
  have h := place_addrFields w
  rwa [hreserved, hmtype, place_zero, BitVec.or_zero] at h

theorem cccWord_of_fields (hreserved : bitField w 24 2 = 0#2) (hmtype : bitField w 27 4 = 1#4) :
    cccWord (w.getLsbD 31) (w.getLsbD 26) (bitField w 16 8) (bitField w 0 16) = w := by
  have h := addrWord_of_fields hreserved hmtype
  rwa [addrWord, BitVec.or_assoc (place (bit (w.getLsbD 31)) 31 ||| _ ||| _), place_code] at h

theorem encode_of_decodeCw (h : decodeCw w = .ok i) : encode i = bytes32 w := by
  unfold decodeCw at h
  split at h
  · next hreserved =>
    split at h <;> cases h
    · next hmtype => exact congrArg bytes32 (cccWord_of_fields hreserved (eq_ofNat_of_toNat_eq hmtype))
    all_goals
      next hmtype => exact congrArg bytes32 (addrWord_of_fields hreserved (eq_ofNat_of_toNat_eq hmtype))
  · cases h

/-! ## A CCC code -/

theorem decodeCcc_of_cccOf (h : cccOf c = some i) : decodeCcc c = .ok i := by
  unfold decodeCcc
  rw [h]

theorem encode_of_cccOf (h : cccOf c = some i) : encode i = [c] := by
  unfold cccOf at h
  split at h <;> cases h
  all_goals
    next hc =>
    rw [eq_ofNat_of_toNat_eq hc]
    rfl

theorem decodeCcc_enthdr (hdr : BitVec 3) : decodeCcc (0x20#8 ||| hdr.setWidth 8) = .ok (.enthdr hdr) := by
  revert hdr
  decide

/-- The codes of HDR entry are 0x20 to 0x27: the low three bits are the mode (spec/30_encoding.md R215). -/
theorem hdr_code (h : cccClass c = .hdr) : 0x20#8 ||| (bitField c 0 3).setWidth 8 = c := by
  revert c
  decide

theorem encode_of_decodeCcc (h : decodeCcc c = .ok i) : encode i = [c] := by
  unfold decodeCcc at h
  split at h
  · next hc =>
    cases h
    exact encode_of_cccOf hc
  · split at h <;> cases h
    next hclass => exact congrArg (fun c => [c]) (hdr_code hclass)

/-! ## Every space -/

theorem decode_encode_command (h : commandOf op st sub = some i) (rest : List Byte) :
    decode .command (bytes32 (cmdWord op st sub) ++ rest) = .ok (i, rest) := by
  rw [decode_command_bytes32, decodeCmd_cmdWord h]
  rfl

theorem decode_encode_control (h : decodeCw w = .ok i) (rest : List Byte) :
    decode .control (bytes32 w ++ rest) = .ok (i, rest) := by
  rw [decode_control_bytes32, h]
  rfl

theorem decode_encode_ccc (h : decodeCcc c = .ok i) (rest : List Byte) : decode .ccc (c :: rest) = .ok (i, rest) := by
  rw [decode, h]
  rfl

end

/-- Settles O1: a command's word gives back its opcode, strategy and SUB, a control word its fields, a CCC code itself. -/
theorem decodeEncode : Obligations.DecodeEncode := by
  intro i rest
  cases i with
  | ctxReset | ctxBind | buildPrivate | buildCcc | decodePayload | init | deinit | start | abort | daa | setdasa | probe
  | busRecover | tgtTx | tgtRx | hjReq | crReq | ibiReq | notifyActivate | notifyDeactivate | getCccInfo =>
    exact decode_encode_command rfl rest
  | cwCcc mend arb code dcnt => exact decode_encode_control (decodeCw_cccWord ..) rest
  | cwPriv mend arb addr rnw dcnt =>
    obtain ⟨hpriv, -, -⟩ := decodeCw_addrWord 2#4 mend arb addr rnw dcnt
    exact decode_encode_control (hpriv rfl) rest
  | cwI2c mend arb addr rnw dcnt =>
    obtain ⟨-, hi2c, -⟩ := decodeCw_addrWord 3#4 mend arb addr rnw dcnt
    exact decode_encode_control (hi2c rfl) rest
  | cwDirect mend arb addr rnw dcnt =>
    obtain ⟨-, -, hdirect⟩ := decodeCw_addrWord 4#4 mend arb addr rnw dcnt
    exact decode_encode_control (hdirect rfl) rest
  | enthdr hdr => exact decode_encode_ccc (decodeCcc_enthdr hdr) rest
  | _ => exact decode_encode_ccc (decodeCcc_of_cccOf rfl) rest

/-- Settles O2: the space is the one decoded in, and each space's decoder answers an instruction whose encoding is what it
was given. -/
theorem encodeDecode : Obligations.EncodeDecode := by
  intro sp bs rest i h
  refine ⟨Machine.decode_space h, ?_⟩
  unfold decode at h
  split at h
  · obtain ⟨i, hi, ⟨⟩⟩ := Machine.map_eq_ok h
    rw [encode_of_decodeCcc hi]
    rfl
  · obtain ⟨i, hi, ⟨⟩⟩ := Machine.map_eq_ok h
    rw [encode_of_decodeCmd hi, bytes32_le32]
    rfl
  · obtain ⟨i, hi, ⟨⟩⟩ := Machine.map_eq_ok h
    rw [encode_of_decodeCw hi, bytes32_le32]
    rfl
  · cases h

/-- Settles O3: each word is closed, so the decoder is evaluated on it. -/
theorem writtenWordsDecode : Obligations.WrittenWordsDecode := by
  unfold Obligations.WrittenWordsDecode
  decide

end Sys2Proof
end

section
/-! SUPPORT. The turns of the agents (spec/00_scope.md R8): which operation of the model each kind of turn runs, and the writes
of CMD that run none. -/

namespace Sys2Proof.Machine

/-! ## Writes of CMD (spec/30_encoding.md R170, R171) -/

section
variable {i : Instr} {op sub : Byte} {st : Strat} {w : Word} {r : List Byte}

/-- The opcodes of the host commands (spec/30_encoding.md R171). -/
def opcodes : List Nat :=
  [0x01, 0x02, 0x03, 0x04, 0x05, 0x10, 0x11, 0x20, 0x21, 0x22, 0x23, 0x24, 0x25, 0x30, 0x31, 0x32, 0x33, 0x34, 0x40,
    0x41, 0x42]

theorem opcode_mem_of_commandOf (h : commandOf op st sub = some i) : op.toNat ∈ opcodes := by
  unfold commandOf at h
  split at h <;> cases h
  all_goals
    next hop =>
    rw [hop]
    decide

theorem hostTurn_cmd (w : Word) (s : State) : hostTurn (.write 0x00 4 w) s = writeCmd w s := rfl

theorem writeCmd_of_ok (s : State) (h : decode .command (bytes32 w) = .ok (i, r)) : writeCmd w s = exec i s := by
  rw [writeCmd, h]

theorem writeCmd_of_not_ok (s : State) (h : ∀ i, decodeCmd w ≠ .ok i) :
    writeCmd w s = .next { s with rep.pcode := 3 } := by
  have hdecode : decode .command (bytes32 w) = (decodeCmd w).map (·, []) := decode_command_bytes32 w []
  cases hw : decodeCmd w with
  | ok i => exact absurd hw (h i)
  | error e =>
    rw [hw] at hdecode
    rw [writeCmd, hdecode]
    rfl

end

/-- Settles O4: an accepted word has no reserved bit, a strategy and an opcode of the table (`decodeCmd_eq_ok_iff`). -/
theorem reservedCommandsRejected : Obligations.ReservedCommandsRejected := by
  intro w s h
  rw [hostTurn_cmd]
  refine writeCmd_of_not_ok s fun i hi => ?_
  obtain ⟨⟨hlow, hhigh⟩, st, hstrat, hcmd⟩ := decodeCmd_eq_ok_iff.mp hi
  rcases h with h | h | h | h
  · exact h hlow
  · exact h hhigh
  · rw [h] at hstrat
    cases hstrat
  · exact h (opcode_mem_of_commandOf hcmd)

/-! ## Conditions as propositions -/

theorem accessOk_iff {off : Byte} {width : Nat} : accessOk off width = true ↔ width = 4 ∧ off.toNat % 4 = 0 := by
  simp [accessOk, bitField, ← BitVec.toNat_inj]

theorem legal_iff (p : Params) : p.legal = true ↔
    (∀ d ∈ [p.cfifoDepth, p.sfifoDepth, p.txfifoDepth, p.rxfifoDepth], 1 ≤ d ∧ d ≤ 65535) ∧ p.ibiMax ≤ 4 ∧
      p.bdtEntries = 4 := by
  simp [Params.legal, Params.depthOk, and_assoc]

section
variable {s : State}

theorem running_iff : running s = true ↔ s.ctl.life ≠ .reset ∧ s.ctl.life ≠ .init := by simp [running]

theorem requestWaits_iff : requestWaits s = true ↔ s.ctl.life = .init ∨ s.seq.frame = true ∨ s.work.request ≠ .idle := by
  simp [requestWaits, or_assoc]

theorem writeLimit_toNat (s : State) : (writeLimit s).toNat =
    if s.cfg.mwl = 0 then s.tgt.tgtlen.toNat else min s.tgt.tgtlen.toNat s.cfg.mwl.toNat := by
  unfold writeLimit limited
  split
  · rfl
  · split
    · omega
    · rw [BitVec.toNat_setWidth]
      omega

theorem privWriteHolds_iff : privWriteHolds s = true ↔ s.tgt.phase = .privW ∧
    s.env.params.rxfifoDepth ≤ s.fifo.rxfifo.length ∧ s.cnt.datacnt.toNat ≠ (writeLimit s).toNat := by
  simp only [privWriteHolds, rxfifoFull, BitVec.toNat_ne, Bool.and_eq_true, beq_iff_eq, bne_iff_ne, decide_eq_true_eq]
  exact and_right_comm.trans and_assoc

/-! ## Turns of the HOST and the ENV -/

theorem step_of_agenda {x : Turn} {turns : List Turn} (hlegal : s.env.params.legal = true)
    (h : s.env.agenda = x :: turns) : step s = runTurn x { s with env.agenda := turns } := by
  rw [step, if_pos hlegal, nextTurn, h]

theorem step_of_not_legal (h : ¬s.env.params.legal = true) : step s = .refused .illegalParameters := if_neg h

theorem hostTurn_refused {off : Byte} {width : Nat} (v : Word) (h : width ≠ 4 ∨ off.toNat % 4 ≠ 0) :
    hostTurn (.read off width) s = .refused .hostAccessShape ∧
      hostTurn (.write off width v) s = .refused .hostAccessShape := by
  have hshape : ¬accessOk off width = true := by rw [accessOk_iff]; omega
  exact ⟨if_neg hshape, if_neg hshape⟩

theorem timeoutTurn_eq (s : State) : timeoutTurn s =
    if s.ctl.cmdp = true ∧ s.ctl.tmo = true ∧ s.ctl.abortreq = false then timeoutHalt s else s := by
  simp [timeoutTurn, and_assoc]

/-! ## Turns of the ENGINE -/

/-- While no abort is requested and the block is initialised, the ENGINE takes the step of its role. -/
theorem engineTurn_of_running (u : EngineUnit) (a : PhyAnswer) (habort : s.ctl.abortreq = false)
    (hrun : s.ctl.life ≠ .reset ∧ s.ctl.life ≠ .init) : engineTurn u a s = roleStep u s := by
  obtain ⟨hreset, hinit⟩ := hrun
  simp [engineTurn, habort, hreset, hinit]

theorem engineTurn_controller (u : EngineUnit) (a : PhyAnswer) (habort : s.ctl.abortreq = false)
    (hrun : s.ctl.life ≠ .reset ∧ s.ctl.life ≠ .init) (hmode : s.ctl.mode = .controller) :
    engineTurn u a s = controllerStep s := by
  rw [engineTurn_of_running u a habort hrun, roleStep, hmode]

theorem engineTurn_target (u : EngineUnit) (a : PhyAnswer) (habort : s.ctl.abortreq = false)
    (hrun : s.ctl.life ≠ .reset ∧ s.ctl.life ≠ .init) (hmode : s.ctl.mode = .target) :
    engineTurn u a s = targetStep u s := by
  rw [engineTurn_of_running u a habort hrun, roleStep, hmode]

theorem controllerStep_of_request (h : s.work.request ≠ .idle) : controllerStep s = .next (requestStep s) := if_pos h

theorem controllerStep_of_daa (hrequest : s.work.request = .idle) (h : s.ctl.life = .daa) :
    controllerStep s = .next (daaStep s) := by
  simp [controllerStep, hrequest, h]

/-- The pending SETDASA, PROBE or BUS_RECOVER makes the step, after target requests and DAA. -/
theorem controllerStep_of_oneShot (hrequest : s.work.request = .idle) (hdaa : s.ctl.life ≠ .daa)
    (hcmdp : s.ctl.cmdp = true) :
    (s.ctl.pendop = opSetdasa → controllerStep s = .next (setdasaStep s)) ∧
      (s.ctl.pendop = opProbe → controllerStep s = .next (probeStep s)) ∧
      (s.ctl.pendop = opBusRecover → controllerStep s = .next (recoverStep s)) := by
  refine ⟨?_, ?_, ?_⟩ <;> intro hop <;>
    simp [controllerStep, hrequest, hdaa, pending, hcmdp, hop, opStart, opSetdasa, opProbe, opBusRecover]

end

/-! ## Events -/

section
variable {s : State} {e : PhyEvent} {es : List PhyEvent}

/-- A request waits for the end of INIT, of a frame or of a request in handling; else its handling begins. -/
theorem eventTurn_treq {a : Addr7} {w : Bool} (hevents : s.env.events = .treq a w :: es)
    (habort : s.ctl.abortreq = false) (hmode : s.ctl.mode = .controller) :
    (requestWaits s = true → eventTurn s = .next s) ∧
    (¬requestWaits s = true → running s = true →
      eventTurn s = .next (beginRequest a w { s with env.events := es, env.cue := .event (.treq a w) })) := by
  unfold eventTurn
  rw [hevents, hmode, habort]
  refine ⟨fun h => if_pos h, fun h hr => ?_⟩
  simp [h, hr]

/-- In target role an event is taken, but for a byte that waits. -/
theorem eventTurn_target (hevents : s.env.events = e :: es) (habort : s.ctl.abortreq = false)
    (hmode : s.ctl.mode = .target) (hrun : running s = true) :
    eventTurn s = if (∃ b, e = .byte b) ∧ privWriteHolds s = true then .next s
      else targetEvent e { s with env.events := es, env.cue := .event e } := by
  unfold eventTurn
  rw [hevents, hmode, habort]
  cases e <;> simp [hrun]

end

/-! ## Every kind of turn -/

/-- Settles O5: a step under a legal parameter set is `runTurn` of the agenda's head; each kind of turn by the lemma about its
agent. -/
theorem stepRunsCommand : Obligations.StepRunsCommand := by
  intro s turns depths legal t runs
  have hlegal : s.env.params.legal = true ↔ legal := legal_iff s.env.params
  refine ⟨fun h => step_of_not_legal fun h' => h (hlegal.mp h'), fun h => ?_⟩
  have hstep : ∀ {x : Turn}, s.env.agenda = x :: turns → step s = runTurn x t := step_of_agenda (hlegal.mpr h)
  refine ⟨hstep, fun a b => hstep, ?shape, ?cmd, fun x => hstep, fun m d => hstep, ?timeout, ?engine, ?event, ?init⟩
  case shape =>
    intro off width v hshape hagenda
    obtain ⟨hread, hwrite⟩ := hostTurn_refused (s := t) v hshape
    rcases hagenda with hagenda | hagenda
    · exact (hstep hagenda).trans hread
    · exact (hstep hagenda).trans hwrite
  case cmd =>
    intro w i r hagenda hdecode
    exact (hstep hagenda).trans (writeCmd_of_ok t hdecode)
  case timeout =>
    intro hagenda
    exact (hstep hagenda).trans (congrArg _ (timeoutTurn_eq t))
  case engine =>
    intro u a hagenda c
    have hengine : step s = engineTurn u a c := hstep hagenda
    refine ⟨hengine, fun ⟨habort, hrun⟩ hmode => ?_, fun ⟨habort, hrun⟩ hmode => ?_⟩
    · rw [hengine, engineTurn_controller (s := c) u a habort hrun hmode]
      exact ⟨rfl, controllerStep_of_request (s := c), fun hidle =>
        ⟨controllerStep_of_daa (s := c) hidle, controllerStep_of_oneShot (s := c) hidle⟩⟩
    · rw [hengine, engineTurn_target (s := c) u a habort hrun hmode]
      exact ⟨rfl, by rintro rfl; rfl⟩
  case event =>
    intro e es hagenda hevents ⟨habort, hrun⟩ c lim holds
    have hrunning : running t = true := running_iff.mpr hrun
    have hholds : holds ↔ (∃ b, e = .byte b) ∧ privWriteHolds t = true := by
      rw [privWriteHolds_iff, writeLimit_toNat]
    rw [show step s = eventTurn t from hstep hagenda]
    refine ⟨fun hmode hnot => ?_, fun hmode hyes => ?_, ?_⟩
    · rw [eventTurn_target (s := t) hevents habort hmode hrunning, if_neg fun h => hnot (hholds.mpr h)]
    · rw [eventTurn_target (s := t) hevents habort hmode hrunning, if_pos (hholds.mp hyes)]
    · rintro a w hmode rfl
      obtain ⟨hwaits, hbegins⟩ := eventTurn_treq (s := t) hevents habort hmode
      obtain ⟨-, hinit⟩ := hrun
      refine ⟨fun hframe hidle => hbegins (fun hw => ?_) hrunning,
        fun hbusy => hwaits (requestWaits_iff.mpr (.inr hbusy))⟩
      rcases requestWaits_iff.mp hw with h | h | h
      · exact hinit h
      · exact Bool.false_ne_true (hframe.symm.trans h)
      · exact h hidle
  case init =>
    intro a w es hagenda hevents hmode habort hinit
    obtain ⟨hwaits, -⟩ := eventTurn_treq (s := t) hevents habort hmode
    exact (hstep hagenda).trans (hwaits (requestWaits_iff.mpr (.inl hinit)))

end Sys2Proof.Machine
end

section
/-! SUPPORT. A sequence of accesses (spec/20_memory.md R138, R139): how far it gets, and what memory then holds. A block of
bytes is a base address with fields at offsets from it. -/

namespace Sys2Proof.Machine

/-! ## Blocks of bytes -/

section
variable {s : State} {a n : Nat}

/-- What holds of every address of a block holds of those of its part at an offset. -/
theorem forall_byteAt_add {P : Nat → Prop} (h : ∀ k, k < n → P (byteAt s a k)) {o l : Nat} (hl : o + l ≤ n) :
    ∀ k, k < l → P (byteAt s (a + o) k) := fun k hk => by
  rw [byteAt_add]
  exact h (o + k) (by omega)

theorem writableBlock_one_iff {o : Nat} : WritableBlock s (a + o) 1 ↔ writable s (byteAt s a o) = true := by
  simp [WritableBlock, byteAt_add]

theorem outside_one_iff {o c : Nat} : Outside s (a + o) 1 c ↔ c ≠ byteAt s a o := by
  simp [Outside, byteAt_add]

@[simp] theorem length_bytes32 (w : Word) : (bytes32 w).length = 4 := rfl

/-- Four bytes of memory that are the bytes of a word. -/
theorem wordAt_of_bytes {m : Memory} {w : Word}
    (h : ∀ j (hj : j < (bytes32 w).length), Memory.read m (byteAt s a j) = (bytes32 w)[j]) : wordAt s m a = w := by
  rw [wordAt, h 0 (by simp), h 1 (by simp), h 2 (by simp), h 3 (by simp)]
  exact le32_bytes32 w

end

/-! ## What a sequence of accesses stores -/

/-- The memory `m` after the accesses `ws`, in order, with the addresses of the state `s`. -/
def storeAll (s : State) (m : Memory) (ws : List (Nat × List Byte)) : Memory :=
  ws.foldl (fun m w => Memory.store s.env.params.addrW m w.1 w.2) m

section
variable {s : State} {m : Memory} {ws : List (Nat × List Byte)}

theorem storeAll_append (s : State) (m : Memory) (ws vs : List (Nat × List Byte)) :
    storeAll s m (ws ++ vs) = storeAll s (storeAll s m ws) vs := List.foldl_append

theorem wf_storeAll (hm : Memory.wf s.env.params.addrW m = true) :
    Memory.wf s.env.params.addrW (storeAll s m ws) = true := Memory.wf_foldl_store ws hm

/-- A byte outside every access is unchanged. -/
theorem read_storeAll_of_outside {c : Nat} (h : ∀ w ∈ ws, Outside s w.1 w.2.length c) :
    Memory.read (storeAll s m ws) c = Memory.read m c := Memory.read_foldl_store_other s ws m h

/-- A byte that accesses of one byte `v` reach holds `v`, however often they reach it. -/
theorem read_storeAll_of_const {v : Byte} {c : Nat} (hm : Memory.wf s.env.params.addrW m = true)
    (hv : ∀ w ∈ ws, w.2 = [v]) (hc : ∃ w ∈ ws, c = byteAt s w.1 0) : Memory.read (storeAll s m ws) c = v := by
  induction ws generalizing m with
  | nil => simp at hc
  | cons w r ih =>
    by_cases hr : ∃ w ∈ r, c = byteAt s w.1 0
    · exact ih (Memory.wf_store w.2 w.1 hm) (fun x hx => hv x (by simp [hx])) hr
    · obtain ⟨x, hx, rfl⟩ := hc
      obtain rfl | hx := List.mem_cons.mp hx
      · have hlater : ∀ w ∈ r, Outside s w.1 w.2.length (byteAt s x.1 0) := fun w hw k hk hreach => by
          rw [hv w (by simp [hw])] at hk
          obtain rfl : k = 0 := by simpa using hk
          exact hr ⟨w, hw, hreach⟩
        have hbyte : x.2 = [v] := hv x (by simp)
        rw [storeAll, List.foldl_cons, hbyte]
        exact (read_storeAll_of_outside hlater).trans
          (Memory.read_store_same s [v] x.1 hm (Nat.two_pow_pos _) (k := 0) (by simp))
      · exact absurd ⟨x, hx, rfl⟩ hr

/-- Two fields, each an offset and its bytes, share no byte. -/
def Apart (f g : Nat × List Byte) : Prop := f.1 + f.2.length ≤ g.1 ∨ g.1 + g.2.length ≤ f.1

/-- The access that writes a field of the block at `a`. -/
def shift (a : Nat) (f : Nat × List Byte) : Nat × List Byte := (a + f.1, f.2)

/-- Fields of a block no longer than the address space that share no byte are all read back. -/
theorem read_storeAll_fields {a : Nat} {fs : List (Nat × List Byte)} (hm : Memory.wf s.env.params.addrW m = true)
    (hapart : fs.Pairwise Apart) (hend : ∀ f ∈ fs, f.1 + f.2.length ≤ 2 ^ s.env.params.addrW) :
    ∀ f ∈ fs, ∀ j (hj : j < f.2.length),
      Memory.read (storeAll s m (fs.map (shift a))) (byteAt s (a + f.1) j) = f.2[j] := by
  induction fs generalizing m with
  | nil => simp
  | cons g r ih =>
    obtain ⟨hfirst, hrest⟩ := List.pairwise_cons.mp hapart
    intro f hf j hj
    obtain rfl | hf := List.mem_cons.mp hf
    · have hlen := hend f (by simp)
      have hlater : ∀ w ∈ r.map (shift a), Outside s w.1 w.2.length (byteAt s (a + f.1) j) := by
        simp only [List.mem_map, forall_exists_index, and_imp, forall_apply_eq_imp_iff₂]
        intro g hg k (hk : k < g.2.length) heq
        have hglen := hend g (by simp [hg])
        simp only [shift, byteAt_add] at heq
        have hsame := byteAt_injective s a (by omega) (by omega) heq
        have := hfirst g hg
        unfold Apart at this
        omega
      exact (read_storeAll_of_outside hlater).trans (Memory.read_store_same s f.2 (a + f.1) hm (by omega) hj)
    · exact ih (Memory.wf_store _ _ hm) hrest (fun h hh => hend h (by simp [hh])) f hf j hj

/-- A word among such fields. -/
theorem wordAt_storeAll_fields {a o : Nat} {v : Word} {fs : List (Nat × List Byte)}
    (hm : Memory.wf s.env.params.addrW m = true) (hapart : fs.Pairwise Apart)
    (hend : ∀ f ∈ fs, f.1 + f.2.length ≤ 2 ^ s.env.params.addrW) (hf : (o, bytes32 v) ∈ fs) :
    wordAt s (storeAll s m (fs.map (shift a))) (a + o) = v :=
  wordAt_of_bytes (read_storeAll_fields hm hapart hend _ hf)

/-- A byte among such fields. -/
theorem byte_storeAll_fields {a o : Nat} {v : Byte} {fs : List (Nat × List Byte)}
    (hm : Memory.wf s.env.params.addrW m = true) (hapart : fs.Pairwise Apart)
    (hend : ∀ f ∈ fs, f.1 + f.2.length ≤ 2 ^ s.env.params.addrW) (hf : (o, [v]) ∈ fs) :
    Memory.read (storeAll s m (fs.map (shift a))) (byteAt s a o) = v :=
  read_storeAll_fields hm hapart hend _ hf 0 (by simp)

end

/-! ## How far a sequence of accesses gets -/

/-- A class-P command that only writes memory ends with the accesses before the first that cannot be written, OK where
that is all of them. -/
theorem endWrites_memWrites_eq {s : State} {ws : List (Nat × List Byte)} {n : Nat} (hn : n ≤ ws.length)
    (hdone : ∀ w ∈ ws.take n, WritableBlock s w.1 w.2.length)
    (hstop : ∀ h : n < ws.length, ¬WritableBlock s ws[n].1 ws[n].2.length) :
    endWrites (memWrites s ws) =
      { s with mem := storeAll s s.mem (ws.take n), rep.pcode := if n = ws.length then 0 else 3 } := by
  rcases hn.lt_or_eq with hlt | rfl
  · rw [memWrites_stops ws s n hlt hdone (hstop hlt), if_neg hlt.ne]
    rfl
  · rw [List.take_length] at hdone ⊢
    rw [memWrites_writable ws s hdone, if_pos rfl]
    rfl

/-- The first `n` elements of a list, by their indices. -/
theorem forall_mem_take_iff {α : Type} {l : List α} {n : Nat} (hn : n ≤ l.length) {P : α → Prop} :
    (∀ x ∈ l.take n, P x) ↔ ∀ k (h : k < n), P (l[k]'(h.trans_le hn)) := by
  simp only [List.mem_take_iff_getElem, Nat.min_eq_left hn, forall_exists_index]
  exact ⟨fun h k hk => h _ k hk rfl, fun h _ k hk e => e ▸ h k hk⟩

end Sys2Proof.Machine
end

section
/-! SUPPORT. The encoder's commands (spec/40_builder.md R240 to R252): that they touch memory and PRESULT alone, and what
each writes. -/

namespace Sys2Proof.Machine

/-! ## Purity -/

section
variable {s t : State}

/-- Nothing but system memory and PRESULT differs. -/
def OnlyMemory (s t : State) : Prop := t = { s with mem := t.mem, rep.pcode := t.rep.pcode }

theorem onlyMemory_presult (c : Code) (s : State) : OnlyMemory s (presult c s) := rfl

theorem onlyMemory_endWrites (ws : List (Nat × List Byte)) (s : State) : OnlyMemory s (endWrites (memWrites s ws)) := by
  rw [endWrites, memWrites_eq]
  rfl

theorem OnlyMemory.ite {c : Prop} [Decidable c] {u : State} (ht : OnlyMemory s t) (hu : OnlyMemory s u) :
    OnlyMemory s (if c then t else u) := by
  split
  · exact ht
  · exact hu

theorem onlyMemory_build (ccc : Bool) (sub : Byte) (s : State) : OnlyMemory s (build ccc sub s) := by
  unfold build
  split
  · exact onlyMemory_presult _ s
  · exact onlyMemory_endWrites _ s

end

/-- Settles O22: every command ends in `presult`, three of them after a sequence of accesses. -/
theorem builderPurity : Obligations.BuilderPurity := by
  rintro st sub s t (h | h | h | h) <;> obtain rfl := Host.Outcome.next.inj h
  · exact OnlyMemory.ite (onlyMemory_endWrites _ s) (onlyMemory_presult _ s)
  · exact OnlyMemory.ite (onlyMemory_endWrites _ s) (onlyMemory_presult _ s)
  · exact onlyMemory_build false sub s
  · exact onlyMemory_build true sub s

/-! ## CTX_RESET -/

section
variable {s : State} (st : Strat) (sub : Byte)

theorem exec_ctxReset_misaligned (h : s.arg.arg0.toNat % 4 ≠ 0) :
    exec (.ctxReset st sub) s = .next { s with rep.pcode := 3 } :=
  congrArg Host.Outcome.next (if_neg (mt (aligned4_iff _).mp h))

theorem exec_ctxReset_aligned (h : s.arg.arg0.toNat % 4 = 0) :
    exec (.ctxReset st sub) s = .next (endWrites (memWrites s (resetWrites s.arg.arg0.toNat))) :=
  congrArg Host.Outcome.next (if_pos ((aligned4_iff _).mpr h))

end

theorem length_resetWrites (ctx : Nat) : (resetWrites ctx).length = 48 := by simp [resetWrites]

theorem take_resetWrites (ctx : Nat) {n : Nat} (hn : n ≤ 48) :
    (resetWrites ctx).take n = (List.range n).map fun k => (ctx + k, [0#8]) := by
  rw [resetWrites, ← List.map_take, List.take_range, Nat.min_eq_left hn]

/-- Settles O26: the accesses of CTX_RESET go as far as bytes can be written (`endWrites_memWrites_eq`), and each of those
done writes one 0. -/
theorem ctxResetCompletes : Obligations.CtxResetCompletes := by
  intro st sub s hmem ctx
  refine ⟨exec_ctxReset_misaligned st sub, fun halign n hn hwritable hstop => ?_⟩
  have htake := take_resetWrites ctx hn
  have hlen := length_resetWrites ctx
  have hdone : ∀ w ∈ (resetWrites ctx).take n, WritableBlock s w.1 w.2.length := by
    rw [htake]
    exact List.forall_mem_map.mpr fun k hk => writableBlock_one_iff.mpr (hwritable k (List.mem_range.mp hk))
  have hfault : ∀ h : n < (resetWrites ctx).length,
      ¬WritableBlock s (resetWrites ctx)[n].1 (resetWrites ctx)[n].2.length := fun h => by
    simpa [resetWrites, writableBlock_one_iff] using hstop (hlen ▸ h)
  refine ⟨storeAll s s.mem ((resetWrites ctx).take n), ?_, fun k hk => ?_, fun c hc => ?_⟩
  · rw [exec_ctxReset_aligned st sub halign, endWrites_memWrites_eq (hlen ▸ hn) hdone hfault, hlen]
  · refine read_storeAll_of_const hmem (by simp [htake]) ⟨(ctx + k, [0#8]), ?_, by rw [byteAt_add]; rfl⟩
    rw [htake]
    exact List.mem_map.mpr ⟨k, List.mem_range.mpr hk, rfl⟩
  · rw [htake]
    exact read_storeAll_of_outside (List.forall_mem_map.mpr fun k hk => outside_one_iff.mpr (hc k (List.mem_range.mp hk)))

/-! ## CTX_BIND -/

theorem bindOk_iff (sel : Byte) (ctx b : Word) :
    bindOk sel ctx b = true ↔ ctx.toNat % 4 = 0 ∧ sel.toNat ≤ 2 ∧ (sel = 0 → b.toNat % 4 = 0) := by
  simp [bindOk, aligned4_iff, and_assoc, imp_iff_not_or]

section
variable {s : State} (st : Strat) {sub : Byte}

theorem exec_ctxBind_rejected
    (h : ¬(s.arg.arg0.toNat % 4 = 0 ∧ sub.toNat ≤ 2 ∧ (sub = 0 → s.arg.arg1.toNat % 4 = 0))) :
    exec (.ctxBind st sub) s = .next { s with rep.pcode := 3 } :=
  congrArg Host.Outcome.next (if_neg (mt (bindOk_iff ..).mp h))

theorem exec_ctxBind_accepted
    (h : s.arg.arg0.toNat % 4 = 0 ∧ sub.toNat ≤ 2 ∧ (sub = 0 → s.arg.arg1.toNat % 4 = 0)) :
    exec (.ctxBind st sub) s =
      .next (endWrites (memWrites s (bindWrites sub s.arg.arg0.toNat s.arg.arg1 s.arg.arg2))) :=
  congrArg Host.Outcome.next (if_pos ((bindOk_iff ..).mpr h))

end

/-- The fields of a context that CTX_BIND writes (spec/40_builder.md R241). -/
def bindFields (sel : Byte) (b c : Word) : List (Nat × List Byte) :=
  [(8 * sel.toNat, bytes32 b), (8 * sel.toNat + 4, bytes32 c), (0x25, [0#8])]

theorem bindWrites_eq (sel : Byte) (ctx : Nat) (b c : Word) :
    bindWrites sel ctx b c = (bindFields sel b c).map (shift ctx) := rfl

section
variable {sel : Byte} (hsel : sel.toNat ≤ 2) (b c : Word)
include hsel

theorem bindFields_apart : (bindFields sel b c).Pairwise Apart := by
  simp only [bindFields, Apart, List.pairwise_cons, List.forall_mem_cons, List.not_mem_nil, length_bytes32,
    false_implies, implies_true, List.Pairwise.nil, and_true]
  omega

theorem bindFields_end : ∀ f ∈ bindFields sel b c, f.1 + f.2.length ≤ 64 := by
  simp only [bindFields, List.forall_mem_cons, List.not_mem_nil, length_bytes32, List.length_singleton, false_implies,
    implies_true, and_true]
  omega

end

/-- The fields that the first `n` accesses of CTX_BIND write are read back, where a context does not overlap itself. -/
theorem bindWrites_stored {s : State} {m : Memory} {sel : Byte} {ctx : Nat}
    (hm : Memory.wf s.env.params.addrW m = true) (hsel : sel.toNat ≤ 2) (hwidth : 6 ≤ s.env.params.addrW) (b c : Word)
    (n : Nat) :
    let u := storeAll s m ((bindWrites sel ctx b c).take n)
    (1 ≤ n → wordAt s u (ctx + 8 * sel.toNat) = b) ∧ (2 ≤ n → wordAt s u (ctx + 8 * sel.toNat + 4) = c) ∧
      (n = 3 → Memory.read u (byteAt s ctx 0x25) = 0) := by
  have hspace : 2 ^ 6 ≤ 2 ^ s.env.params.addrW := Nat.pow_le_pow_right (by decide) hwidth
  have hapart : ((bindFields sel b c).take n).Pairwise Apart :=
    (bindFields_apart hsel b c).sublist (List.take_sublist n _)
  have hend : ∀ f ∈ (bindFields sel b c).take n, f.1 + f.2.length ≤ 2 ^ s.env.params.addrW := fun f hf =>
    (bindFields_end hsel b c f (List.mem_of_mem_take hf)).trans hspace
  rw [bindWrites_eq, ← List.map_take, Nat.add_assoc]
  refine ⟨fun h => wordAt_storeAll_fields hm hapart hend ?_, fun h => wordAt_storeAll_fields hm hapart hend ?_,
    fun h => byte_storeAll_fields hm hapart hend ?_⟩
  · exact List.mem_take_iff_getElem.mpr ⟨0, lt_min h (by simp [bindFields]), rfl⟩
  · exact List.mem_take_iff_getElem.mpr ⟨1, lt_min h (by simp [bindFields]), rfl⟩
  · exact List.mem_take_iff_getElem.mpr ⟨2, lt_min (by omega) (by simp [bindFields]), rfl⟩

/-- Settles O27: the three accesses are fields of the context that share no byte (`bindFields_apart`); they go as far as they
can be written, and what is done is read back field by field. -/
theorem ctxBindCompletes : Obligations.CtxBindCompletes := by
  intro st sub s hmem ctx field
  refine ⟨fun h => exec_ctxBind_rejected st fun ⟨halign, hsel, hbuf⟩ => ?_, ?_⟩
  · rcases h with h | h | ⟨hzero, h⟩
    · exact h halign
    · omega
    · exact h (hbuf hzero)
  · intro halign hsel hbuf can n hn hcan hstop
    let ws := bindWrites sub ctx s.arg.arg1 s.arg.arg2
    have haccess : ∀ k (h : k < ws.length), WritableBlock s ws[k].1 ws[k].2.length ↔ can k := fun k h => by
      replace h : k < 3 := h
      interval_cases k
      · exact .rfl
      · exact .rfl
      · exact writableBlock_one_iff
    refine ⟨storeAll s s.mem (ws.take n), ?_, fun hwidth => ?_, fun c haddr hcap hbuilt => ?_⟩
    · rw [exec_ctxBind_accepted st ⟨halign, hsel, hbuf⟩, endWrites_memWrites_eq hn
        ((forall_mem_take_iff hn).mpr fun k hk => (haccess k _).mpr (hcan k hk))
        fun h => mt (haccess n h).mp (hstop h)]
      rfl
    · exact bindWrites_stored hmem hsel hwidth _ _ n
    · refine read_storeAll_of_outside ((forall_mem_take_iff hn).mpr fun k hk => ?_)
      have h3 : k < 3 := by omega
      interval_cases k
      · exact haddr hk
      · exact hcap hk
      · exact outside_one_iff.mpr (hbuilt (by omega))

/-! ## The words of a build -/

section
variable (m : ModeByte)

theorem length_wordsOfDesc (last : Bool) (d : Descriptor) : (wordsOfDesc m last d).length = wordsFor m.cls 1 := by
  cases h : m.cls <;> simp [wordsOfDesc, wordsFor, h]

theorem wordsFor_succ (c : MsgClass) (n : Nat) : wordsFor c (n + 1) = wordsFor c 1 + wordsFor c n := by
  unfold wordsFor
  split <;> omega

/-- The word count law (spec/40_builder.md R249). -/
theorem length_wordsOf (ds : List Descriptor) : (wordsOf m ds).length = wordsFor m.cls ds.length := by
  induction ds with
  | nil => simp [wordsOf, wordsFor]
  | cons d r ih => rw [wordsOf, List.length_append, length_wordsOfDesc, ih, List.length_cons, wordsFor_succ _ r.length]

/-- The order law (spec/40_builder.md R250): the words of descriptor `k` stand after those of the `k` before it. -/
theorem wordsOf_getElem? {ds : List Descriptor} {k : Nat} (h : k < ds.length) {j : Nat} (hj : j < wordsFor m.cls 1) :
    (wordsOf m ds)[wordsFor m.cls k + j]? = (wordsOfDesc m (decide (k + 1 = ds.length)) ds[k])[j]? := by
  induction ds generalizing k with
  | nil => simp at h
  | cons d r ih =>
    have hlen := fun last => length_wordsOfDesc m last d
    cases k with
    | zero =>
      have hlast : r.isEmpty = decide (0 + 1 = (d :: r).length) := by cases r <;> simp
      have hzero : wordsFor m.cls 0 = 0 := by simp [wordsFor]
      rw [wordsOf, hzero, Nat.zero_add, List.getElem?_append_left (by rwa [hlen]), hlast, List.getElem_cons_zero]
    | succ k =>
      rw [wordsOf, wordsFor_succ, Nat.add_assoc, List.getElem?_append_right (by rw [hlen]; omega), hlen,
        Nat.add_sub_cancel_left, ih (by simpa using h)]
      simp

end

/-- Settles O30: the words of descriptor `k` stand at its place (`wordsOf_getElem?`), and each class has its own
(spec/40_builder.md R244, R245, R246). -/
theorem buildWordLaws : Obligations.BuildWordLaws := by
  intro m ds
  refine ⟨length_wordsOf m ds, fun k h => ?_⟩
  intro d mend n db
  have hsingle : m.cls ≠ .cccDirect →
      (wordsOf m ds)[k]? = (wordsOfDesc m (decide (k + 1 = ds.length)) d)[0]? := fun hcls => by
    simpa [wordsFor, hcls] using wordsOf_getElem? m h (j := 0)
  have hpair : m.cls = .cccDirect → ∀ j, j < 2 →
      (wordsOf m ds)[2 * k + j]? = (wordsOfDesc m (decide (k + 1 = ds.length)) d)[j]? := fun hcls j hj => by
    simpa [wordsFor, hcls, hj] using wordsOf_getElem? m h (j := j)
  refine ⟨fun hcls => ?_, fun hcls => ?_, fun hcls => ?_, fun hcls => ?_⟩
  · rw [hsingle (by simp [hcls]), wordsOfDesc, hcls]
    rfl
  · rw [hsingle (by simp [hcls]), wordsOfDesc, hcls]
    rfl
  · rw [hsingle (by simp [hcls]), wordsOfDesc, hcls]
    rfl
  · have hdb : dbn m = db := by simp [dbn, hcls, MsgClass.isCcc, db]
    have hcode := hpair hcls 0 (by decide)
    have haddr := hpair hcls 1 (by decide)
    rw [wordsOfDesc, hcls, hdb] at hcode haddr
    exact ⟨hcode, haddr⟩

/-! ## The accesses of a build -/

/-- The words as fields of the control buffer. -/
def wordFields (ws : List Word) : List (Nat × List Byte) :=
  (List.range ws.length).map fun k => (4 * k, bytes32 (ws.getD k 0))

/-- The fields of a context that a build writes (spec/40_builder.md R247). -/
def headerFields (sub : Byte) (ds : List Descriptor) : List (Nat × List Byte) :=
  [(0x18, bytes32 (BitVec.ofNat 32 (wordsOf (modeByteOf sub) ds).length)),
    (0x1C, bytes32 (BitVec.ofNat 32 (txTotal (modeByteOf sub) ds))),
    (0x20, bytes32 (BitVec.ofNat 32 (rxTotal (modeByteOf sub) ds))), (0x24, [sub]),
    (0x26, [dirmix (modeByteOf sub) ds]), (0x28, bytes32 (BitVec.ofNat 32 ds.length)), (0x25, [1#8])]

theorem wordWrites_eq (a : Nat) (ws : List Word) : wordWrites a ws = (wordFields ws).map (shift a) := by
  induction ws generalizing a with
  | nil => rfl
  | cons w r ih =>
    have hnext : ∀ k, a + 4 + 4 * k = a + 4 * (k + 1) := fun k => by omega
    simp [wordWrites, ih, wordFields, List.range_succ_eq_map, shift, Function.comp_def, hnext]

theorem headerWrites_eq (ctx : Nat) (sub : Byte) (ds : List Descriptor) :
    headerWrites ctx sub ds = (headerFields sub ds).map (shift ctx) := by
  simp [headerWrites, headerFields, shift, length_wordsOf]

theorem buildWrites_eq (ctx : Nat) (sub : Byte) (ds : List Descriptor) (b : Bindings) :
    buildWrites ctx sub ds b =
      (wordFields (wordsOf (modeByteOf sub) ds)).map (shift b.ctrlBuf.toNat) ++ (headerFields sub ds).map (shift ctx) := by
  rw [buildWrites, wordWrites_eq, headerWrites_eq]

theorem wordFields_apart (ws : List Word) : (wordFields ws).Pairwise Apart := by
  refine List.pairwise_map.mpr (List.pairwise_lt_range.imp fun {j k} hjk => .inl ?_)
  simp only [length_bytes32]
  omega

theorem wordFields_end (ws : List Word) : ∀ f ∈ wordFields ws, f.1 + f.2.length ≤ 4 * ws.length :=
  List.forall_mem_map.mpr fun k hk => by
    have hk := List.mem_range.mp hk
    rw [length_bytes32]
    omega

theorem getElem_mem_wordFields {ws : List Word} {k : Nat} (h : k < ws.length) : (4 * k, bytes32 ws[k]) ∈ wordFields ws :=
  List.mem_map.mpr ⟨k, List.mem_range.mpr h, by simp [h]⟩

theorem headerFields_apart (sub : Byte) (ds : List Descriptor) : (headerFields sub ds).Pairwise Apart := by
  simp [headerFields, Apart]

/-- The header is in two parts of the context, one on each side of the unused byte 0x27. -/
theorem headerFields_within (sub : Byte) (ds : List Descriptor) :
    ∀ f ∈ headerFields sub ds,
      0x18 ≤ f.1 ∧ f.1 + f.2.length ≤ 0x18 + 15 ∨ 0x28 ≤ f.1 ∧ f.1 + f.2.length ≤ 0x28 + 4 := by
  simp [headerFields]

section
variable {s : State} {P : Nat → Prop} {ctx : Nat} {sub : Byte} {ds : List Descriptor}

/-- What holds of the addresses of the words holds of every address that their accesses write. -/
theorem forall_wordFields {a : Nat} {ws : List Word} (h : ∀ k, k < 4 * ws.length → P (byteAt s a k)) :
    ∀ w ∈ (wordFields ws).map (shift a), ∀ k, k < w.2.length → P (byteAt s w.1 k) :=
  List.forall_mem_map.mpr fun f hf => forall_byteAt_add h (wordFields_end ws f hf)

/-- What holds of the addresses of the header's two parts holds of every address that its accesses write. -/
theorem forall_headerFields (hlow : ∀ k, k < 15 → P (byteAt s (ctx + 0x18) k))
    (hhigh : ∀ k, k < 4 → P (byteAt s (ctx + 0x28) k)) :
    ∀ w ∈ (headerFields sub ds).map (shift ctx), ∀ k, k < w.2.length → P (byteAt s w.1 k) := by
  refine List.forall_mem_map.mpr fun f hf => ?_
  have hpart : ∀ o, o ≤ f.1 → shift ctx f = (ctx + o + (f.1 - o), f.2) := fun o ho => by
    rw [shift, Nat.add_assoc, Nat.add_sub_cancel' ho]
  rcases headerFields_within sub ds f hf with ⟨hstart, hend⟩ | ⟨hstart, hend⟩
  · rw [hpart _ hstart]
    exact forall_byteAt_add hlow (l := f.2.length) (by omega)
  · rw [hpart _ hstart]
    exact forall_byteAt_add hhigh (l := f.2.length) (by omega)

/-- Both together. -/
theorem forall_buildWrites {b : Bindings}
    (hbuf : ∀ k, k < 4 * (wordsOf (modeByteOf sub) ds).length → P (byteAt s b.ctrlBuf.toNat k))
    (hlow : ∀ k, k < 15 → P (byteAt s (ctx + 0x18) k)) (hhigh : ∀ k, k < 4 → P (byteAt s (ctx + 0x28) k)) :
    ∀ w ∈ buildWrites ctx sub ds b, ∀ k, k < w.2.length → P (byteAt s w.1 k) := by
  rw [buildWrites_eq]
  exact List.forall_mem_append.mpr ⟨forall_wordFields hbuf, forall_headerFields hlow hhigh⟩

end

/-- An access of a build is a word or less. -/
theorem length_le_of_mem_buildWrites {ctx : Nat} {sub : Byte} {ds : List Descriptor} {b : Bindings} :
    ∀ w ∈ buildWrites ctx sub ds b, w.2.length ≤ 4 := by
  rw [buildWrites_eq]
  refine List.forall_mem_append.mpr ⟨List.forall_mem_map.mpr ?_, List.forall_mem_map.mpr ?_⟩
  · simp [wordFields, shift]
  · simp [headerFields, shift]

/-! ## The builds -/

section
variable {ccc : Bool} {s : State} {sub : Byte}

theorem exec_build (ccc : Bool) (st : Strat) (sub : Byte) (s : State) :
    exec (if ccc then .buildCcc st sub else .buildPrivate st sub) s = .next (build ccc sub s) := by
  cases ccc <;> rfl

theorem build_rejected (h : validate ccc sub s = none) : build ccc sub s = { s with rep.pcode := 3 } := by
  rw [build, h]
  rfl

theorem build_accepted {ds : List Descriptor} {b : Bindings} (h : validate ccc sub s = some (ds, b)) :
    build ccc sub s = endWrites (memWrites s (buildWrites s.arg.arg0.toNat sub ds b)) := by
  rw [build, h]

variable {ds : List Descriptor} {b : Bindings} {m : Memory} {ctx : Nat}

/-- The header of a build is read back: it is written last, and its fields share no byte. -/
theorem header_stored (hm : Memory.wf s.env.params.addrW m = true) (hwidth : 6 ≤ s.env.params.addrW) :
    let u := storeAll s m (buildWrites ctx sub ds b)
    wordAt s u (ctx + 0x18) = BitVec.ofNat 32 (wordsOf (modeByteOf sub) ds).length ∧
      wordAt s u (ctx + 0x1C) = BitVec.ofNat 32 (txTotal (modeByteOf sub) ds) ∧
      wordAt s u (ctx + 0x20) = BitVec.ofNat 32 (rxTotal (modeByteOf sub) ds) ∧
      Memory.read u (byteAt s ctx 0x24) = sub ∧ Memory.read u (byteAt s ctx 0x25) = 1 ∧
      Memory.read u (byteAt s ctx 0x26) = dirmix (modeByteOf sub) ds ∧
      wordAt s u (ctx + 0x28) = BitVec.ofNat 32 ds.length := by
  rw [buildWrites_eq, storeAll_append]
  have hspace : 2 ^ 6 ≤ 2 ^ s.env.params.addrW := Nat.pow_le_pow_right (by decide) hwidth
  have hend : ∀ f ∈ headerFields sub ds, f.1 + f.2.length ≤ 2 ^ s.env.params.addrW := fun f hf => by
    have := headerFields_within sub ds f hf
    omega
  have hwords := wf_storeAll (ws := (wordFields (wordsOf (modeByteOf sub) ds)).map (shift b.ctrlBuf.toNat)) hm
  have hapart := headerFields_apart sub ds
  have word {o : Nat} {v : Word} := wordAt_storeAll_fields (a := ctx) (o := o) (v := v) hwords hapart hend
  have byte {o : Nat} {v : Byte} := byte_storeAll_fields (a := ctx) (o := o) (v := v) hwords hapart hend
  exact ⟨word (by simp [headerFields]), word (by simp [headerFields]), word (by simp [headerFields]),
    byte (by simp [headerFields]), byte (by simp [headerFields]), byte (by simp [headerFields]),
    word (by simp [headerFields])⟩

/-- The words of a build are read back, where the header that is written after them does not reach. -/
theorem words_stored (hm : Memory.wf s.env.params.addrW m = true)
    (hspace : 4 * (wordsOf (modeByteOf sub) ds).length ≤ 2 ^ s.env.params.addrW)
    (houtside : ∀ k, k < 4 * (wordsOf (modeByteOf sub) ds).length →
      Outside s (ctx + 0x18) 15 (byteAt s b.ctrlBuf.toNat k) ∧ Outside s (ctx + 0x28) 4 (byteAt s b.ctrlBuf.toNat k))
    {k : Nat} (hk : k < (wordsOf (modeByteOf sub) ds).length) :
    wordAt s (storeAll s m (buildWrites ctx sub ds b)) (b.ctrlBuf.toNat + 4 * k) = (wordsOf (modeByteOf sub) ds)[k] := by
  rw [buildWrites_eq, storeAll_append]
  refine wordAt_of_bytes fun j hj => ?_
  have hword : 4 * k + j < 4 * (wordsOf (modeByteOf sub) ds).length := by
    rw [length_bytes32] at hj
    omega
  obtain ⟨hlow, hhigh⟩ := houtside _ hword
  rw [read_storeAll_of_outside (by rw [byteAt_add]; exact forall_headerFields hlow hhigh)]
  exact read_storeAll_fields hm (wordFields_apart _) (fun f hf => (wordFields_end _ f hf).trans hspace) _
    (getElem_mem_wordFields hk) j hj

end

/-- Settles O29: a build that passes makes the accesses of `buildWrites`, as far as they can be written. Where one cannot,
each byte done that no later access reaches is read back; where all can, the header and the words are. -/
theorem buildCompletes : Obligations.BuildCompletes := by
  intro ccc st sub s hmem i ctx
  have hexec : exec i s = .next (build ccc sub s) := exec_build ccc st sub s
  refine ⟨fun h => by rw [hexec, build_rejected h], fun ds b hvalid => ?_⟩
  rw [← msgClassOf_eq]
  intro m ws buf num accesses access
  have haccesses : accesses = buildWrites ctx sub ds b := by
    rw [buildWrites_eq, wordFields, List.map_map]
    rfl
  have hrun : exec i s = .next (endWrites (memWrites s accesses)) := by
    rw [hexec, build_accepted hvalid, haccesses]
  refine ⟨fun n hn hdone hfault => ?_, fun hbuf hlow hhigh => ?_⟩
  · have haccess : ∀ {k}, (h : k < accesses.length) → access k = accesses[k] := fun h => List.getD_eq_getElem _ _ h
    rw [haccess hn] at hfault
    refine ⟨storeAll s s.mem (accesses.take n), ?_, fun c => read_storeAll_of_outside, fun hwidth k hk j => ?_⟩
    · rw [hrun, endWrites_memWrites_eq hn.le hdone fun _ => hfault, if_neg hn.ne]
    · rw [haccess (hk.trans hn)]
      intro hj hlater
      have hspace : 2 ^ 2 ≤ 2 ^ s.env.params.addrW := Nat.pow_le_pow_right (by decide) hwidth
      have hword : accesses[k].2.length ≤ 4 :=
        length_le_of_mem_buildWrites (ctx := ctx) (sub := sub) (ds := ds) (b := b) _
          (by rw [← haccesses]; exact List.getElem_mem (hk.trans hn))
      have hstored := Memory.read_foldl_store_at s (accesses.take n) hmem (i := k) (j := j)
        (by rw [List.length_take]; omega)
      rw [List.getElem_take] at hstored
      rw [List.getD_eq_getElem _ _ hj]
      exact hstored (by omega) hj hlater
  · refine ⟨storeAll s s.mem accesses, ?_, ?_, ?_, ?_⟩
    · have hall : ∀ w ∈ accesses, WritableBlock s w.1 w.2.length := by
        rw [haccesses]
        exact forall_buildWrites (P := (writable s · = true)) hbuf hlow hhigh
      rw [hrun, endWrites_memWrites_eq le_rfl (by rwa [List.take_length]) fun h => absurd h (lt_irrefl _),
        List.take_length, if_pos rfl]
    · rw [haccesses]
      exact header_stored hmem
    · rw [haccesses]
      exact fun c hc hc' hc'' => read_storeAll_of_outside (forall_buildWrites (P := (c ≠ ·)) hc hc' hc'')
    · rw [haccesses]
      exact fun hspace houtside k hk => words_stored hmem hspace houtside hk

end Sys2Proof.Machine
end

section
/-! SUPPORT. The halts of a pending command (spec/41_controller.md R293, R297): what the abort confirmation and the timeout
leave of the state they end, and when an error answer is raised before the confirmation. -/

namespace Sys2Proof.Machine

/-! ## The shared halt -/

section
variable {s : State}

/-- An open controller frame ends with STOP. -/
theorem closeFrame_true (s : State) : closeFrame true s =
    { s with
      seq.frame := if s.ctl.mode = .controller then false else s.seq.frame
      env.bus := if s.ctl.mode = .controller ∧ s.seq.frame = true then .req .stop :: s.env.bus else s.env.bus } := by
  unfold closeFrame
  split
  · next h =>
    obtain ⟨hmode, -⟩ := h
    rw [if_pos hmode]
    rfl
  · next h =>
    have hframe : (if s.ctl.mode = .controller then false else s.seq.frame) = s.seq.frame := by
      split
      · next hmode => exact (Bool.eq_false_of_not_eq_true fun hf => h ⟨hmode, hf⟩).symm
      · rfl
    rw [hframe]

/-- The halt of a pending command as one update (R293, R297). -/
theorem commandHalt_eq (s : State) : commandHalt s =
    { s with
      fifo := Fifos.reset
      cnt.ctrlrem := 0
      cnt.txrem := 0
      cnt.rxrem := 0
      seq.phase := .idle
      seq.ccchdr := false
      seq.frame := if s.ctl.mode = .controller then false else s.seq.frame
      tgt.trq := .none
      tgt.phase := if s.ctl.mode = .target then .idle else s.tgt.phase
      work.micro := .start
      work.rxHold := none
      work.request := .idle
      env.bus := if s.ctl.mode = .controller ∧ s.seq.frame = true then .req .stop :: s.env.bus else s.env.bus } := by
  unfold commandHalt
  rw [closeFrame_true]
  dsimp only
  split <;> rfl

/-! ## The free values of an abort under DMA -/

/-- The bytes past DATACNT are in memory. -/
theorem exists_dmaAbortBytes_eq (s : State) (n k : Nat) : ∃ m, dmaAbortBytes s n k = { s with mem := m } := by
  induction k with
  | zero => exact ⟨s.mem, rfl⟩
  | succ k ih =>
    obtain ⟨m, hm⟩ := ih
    rw [dmaAbortBytes, hm]
    split
    · exact ⟨_, rfl⟩
    · exact ⟨m, rfl⟩

theorem read_dmaAbortBytes_of_outside (s : State) (n k : Nat) {c : Nat}
    (h : Outside s (s.work.rxBase + s.cnt.datacnt.toNat) k c) :
    Memory.read (dmaAbortBytes s n k).mem c = Memory.read s.mem c := by
  induction k with
  | zero => rfl
  | succ k ih =>
    have hlast : c ≠ byteAt s (s.work.rxBase + s.cnt.datacnt.toNat) k := h k (Nat.lt_succ_self k)
    have hrest := ih fun j hj => h j (Nat.lt_succ_of_lt hj)
    rw [dmaAbortBytes]
    split
    · exact (Memory.read_write_other _ _ hlast).trans hrest
    · exact hrest

/-- Free values are taken by memory and the DMA engine's own state. -/
theorem exists_dmaAbort_eq (s : State) :
    ∃ m e d, dmaAbort s = { s with mem := m, work.dmaEngine := e, work.draws := d } := by
  unfold dmaAbort
  split
  · obtain ⟨m, hm⟩ := exists_dmaAbortBytes_eq s s.work.draws (s.work.rxCap.toNat - s.cnt.datacnt.toNat)
    dsimp only
    rw [hm]
    exact ⟨m, _, _, rfl⟩
  · exact ⟨s.mem, _, _, rfl⟩

theorem dmaAbort_of_not_dma (h : s.ctl.strat ≠ .dma) : dmaAbort s = s := if_neg h

theorem read_dmaAbort_of_outside {c : Nat}
    (h : Outside s (s.work.rxBase + s.cnt.datacnt.toNat) (s.work.rxCap.toNat - s.cnt.datacnt.toNat) c) :
    Memory.read (dmaAbort s).mem c = Memory.read s.mem c := by
  unfold dmaAbort
  split
  · exact read_dmaAbortBytes_of_outside s _ _ h
  · rfl

/-! ## The two ends -/

/-- The abort confirmation as one update of the halted state (R293). -/
theorem exists_abortConfirm_eq (s : State) : ∃ e d, abortConfirm s =
    { commandHalt s with
      ctl.abortreq := false
      ctl.life := .idle
      ctl.cmdp := false
      ctl.tmo := false
      rep.isr := s.rep.isr ||| 4#32
      rep.code := 7
      rep.aux := report s
      rep.reserr := s.rep.callerr
      mem := (dmaAbort (commandHalt s)).mem
      work.dmaEngine := e
      work.draws := d } := by
  obtain ⟨m, e, d, h⟩ := exists_dmaAbort_eq (commandHalt s)
  refine ⟨e, d, ?_⟩
  unfold abortConfirm
  rw [h, commandHalt_eq]
  rfl

theorem requestPending_iff : requestPending s = true ↔
    s.ctl.cmdp = true ∧ (s.ctl.pendop = 0x32 ∨ s.ctl.pendop = 0x33 ∨ s.ctl.pendop = 0x34) := by
  simp [requestPending, pending, opHjReq, opCrReq, opIbiReq, ← and_or_left, or_assoc]

/-- The timeout as one update of the halted state (R297). -/
theorem timeoutHalt_eq (h : s.ctl.cmdp = true) : timeoutHalt s =
    { commandHalt s with
      daa.phase := .idle
      ctl.life := .idle
      ctl.cmdp := false
      ctl.tmo := false
      rep.isr := s.rep.isr |||
        (if s.ctl.pendop = 0x32 ∨ s.ctl.pendop = 0x33 ∨ s.ctl.pendop = 0x34 then 0x200#32 else 0#32)
      rep.code := 1
      rep.aux := report s
      rep.reserr := s.rep.callerr } := by
  have hrequest : requestPending { commandHalt s with daa.phase := .idle } = true ↔
      (s.ctl.pendop = 0x32 ∨ s.ctl.pendop = 0x33 ∨ s.ctl.pendop = 0x34) := by
    rw [requestPending_iff, commandHalt_eq]
    exact and_iff_right h
  unfold timeoutHalt flagRequest
  simp only [hrequest]
  rw [commandHalt_eq]
  split
  · rfl
  · rw [BitVec.or_zero]
    rfl

end

/-! ## Error answers -/

theorem controllerKind_iff (k : ErrCode) : controllerKind k = true ↔ k ∈ [ErrCode.ce0, .ce1, .ce3, .stall] := by
  cases k <;> decide

theorem targetKind_iff (k : ErrCode) : targetKind k = true ↔ k ∈ [ErrCode.te6, .stall] := by
  cases k <;> decide

/-- The errors that a request admits (spec/60_exceptions.md R561). -/
def errorsOf : PhyReq → List ErrCode
  | .addr _ _ | .wbyte _ _ | .rbyte _ _ | .daaRead | .daaWrite _ => [.ce0, .ce1, .ce3, .stall]
  | .treq _ _ | .tbyte _ _ => [.te6, .stall]
  | .start | .rstart | .stop | .recover | .reqAck _ => []

theorem admits_err_iff (r : PhyReq) (k : ErrCode) : admits r (.err k) = true ↔ k ∈ errorsOf r := by
  cases r with
  | addr | wbyte | rbyte | daaRead | daaWrite => exact controllerKind_iff k
  | treq | tbyte => exact targetKind_iff k
  | start | rstart | stop | recover | reqAck => exact iff_of_false Bool.false_ne_true List.not_mem_nil

/-- The steps from `s` to `t` made a request that admits the error. -/
theorem gotError_iff {k : ErrCode} {s t : State} : gotError k s t = true ↔
    ∃ r, .req r ∈ t.env.bus.take (t.env.bus.length - s.env.bus.length) ∧ admits r (.err k) = true := by
  unfold gotError
  rw [List.any_eq_true]
  constructor
  · rintro ⟨o, ho, h⟩
    cases o with
    | req r => exact ⟨r, ho, h⟩
    | answer _ => cases h
    | offer _ => cases h
  · rintro ⟨r, hr, h⟩
    exact ⟨.req r, hr, h⟩

/-- While an abort is requested an error that the machine's own step has raised comes before the confirmation. -/
theorem abortTurn_err {u : EngineUnit} {k : ErrCode} {s v : State} (h : roleStep u s = .next v) :
    abortTurn u (.err k) s = .next (abortConfirm (if gotError k s v then v else s)) := by
  simp only [abortTurn, h]

theorem abortTurn_of_no_error {u : EngineUnit} {x : PhyAnswer} {s : State} (h : ∀ k, x ≠ .err k) :
    abortTurn u x s = .next (abortConfirm s) := by
  cases x with
  | err k => exact absurd rfl (h k)
  | _ => rfl

theorem engineTurn_of_abortreq {s : State} (u : EngineUnit) (x : PhyAnswer) (h : s.ctl.abortreq = true) :
    engineTurn u x s = abortTurn u x s := if_pos h

theorem eventTurn_of_abortreq {s : State} (h : s.ctl.abortreq = true) : eventTurn s = .next (abortConfirm s) := if_pos h

/-- Settles O18: each end is one update of the halted state (`exists_abortConfirm_eq`, `timeoutHalt_eq`); under ABORTREQ the
next ENGINE step is `abortTurn`, which looks for the error in what its machine has just requested. -/
theorem abortAndTimeout : Obligations.AbortAndTimeout := by
  intro s hcmdp a t
  obtain ⟨e, d, ha⟩ := exists_abortConfirm_eq s
  have ht : t = _ := timeoutHalt_eq hcmdp
  change a = _ at ha
  refine ⟨?both, ?_, ?_, ?_, ?_, ?mem, ?outside, ?_, ?_, ?_, ?_, ?_, ?next⟩
  case both =>
    rintro r (rfl | rfl)
    on_goal 1 => rw [ha, commandHalt_eq]
    on_goal 2 => rw [ht, commandHalt_eq]
    all_goals
      exact ⟨rfl, rfl, rfl, rfl, rfl, rfl, rfl, rfl, rfl, fun hmode => if_pos hmode, fun hmode => if_pos hmode, rfl, rfl,
        rfl, rfl, rfl, rfl, rfl, rfl, rfl, rfl⟩
  case mem =>
    intro hstrat
    rw [ha, dmaAbort_of_not_dma (by rwa [commandHalt_eq]), commandHalt_eq]
  case outside =>
    intro c hc
    rw [ha]
    refine (read_dmaAbort_of_outside ?_).trans ?_
    · rwa [commandHalt_eq]
    · rw [commandHalt_eq]
  case next =>
    intro habort
    refine ⟨eventTurn_of_abortreq habort, fun u x hx => ?_, ?error⟩
    · rw [engineTurn_of_abortreq u x habort, abortTurn_of_no_error hx]
    case error =>
      intro u k v _ hv asked
      have hrole : roleStep u s = .next v := by
        rcases hv with ⟨hmode, hstep⟩ | ⟨hmode, hstep⟩
        all_goals
          rw [roleStep, hmode]
          exact hstep
      have hasked : asked ↔ gotError k s v = true := by
        rw [gotError_iff]
        refine exists_congr fun r => and_congr_right fun _ => ?_
        rw [admits_err_iff]
        cases r <;> rfl
      rw [engineTurn_of_abortreq u _ habort, abortTurn_err hrole]
      refine ⟨fun h => ?_, fun h => ?_⟩
      · rw [if_pos (hasked.mp h)]
      · rw [if_neg (mt hasked.mpr h)]
  all_goals simp [ha, ht, commandHalt_eq]

end Sys2Proof.Machine
end

section
/-! SUPPORT. The acceptance checks that the class-L commands share (spec/41_controller.md R281), and the lifecycle commands
INIT, DEINIT and ABORT (R300, R301, R292). -/

namespace Sys2Proof.Machine

/-! ## The gate -/

section
variable {m : Mode} {l : Life} {needsBus : Bool} {strats : List Strat} {st : Strat} {s : State}

/-- Checks 1 to 4. -/
theorem gate_busy
    (h : s.ctl.mode ≠ m ∨ s.ctl.cmdp = true ∨ s.ctl.life ≠ l ∨ (needsBus = true ∧ s.ctl.recov = true)) :
    gate m l needsBus strats st s = some .busy := by
  unfold gate
  rcases h with h | h | h | ⟨hbus, hrecov⟩
  · rw [if_pos h]
  · simp [h]
  · simp [h]
  · simp [hbus, hrecov]

/-- Checks 1 to 4 pass: what is left is the strategy, check 5. -/
theorem gate_of_not_busy (hmode : s.ctl.mode = m) (hcmdp : s.ctl.cmdp = false) (hlife : s.ctl.life = l)
    (hrecov : needsBus = true → s.ctl.recov = false) :
    (StratOk strats st s → gate m l needsBus strats st s = none) ∧
      (¬StratOk strats st s → gate m l needsBus strats st s = some .invalidParam) := by
  have hbus : ¬(needsBus && s.ctl.recov) = true := by
    rw [Bool.and_eq_true]
    rintro ⟨hneeds, hr⟩
    exact Bool.false_ne_true ((hrecov hneeds).symm.trans hr)
  unfold gate StratOk
  rw [if_neg (not_not_intro hmode), hcmdp, if_neg Bool.false_ne_true, if_neg (not_not_intro hlife), if_neg hbus]
  by_cases hmem : st ∈ strats
  · rw [List.contains_iff_mem.mpr hmem]
    rcases eq_or_ne st .dma with rfl | hdma
    · simp [hmem]
    · simp [hmem, hdma]
  · simp [hmem]

end

/-! ## The class-L commands -/

/-- The class-L commands with the MODE and the STATE they need, whether they need RECOV = 0, and their strategies
(spec/30_encoding.md R171). -/
def longCommands (st : Strat) (sub : Byte) : List (Instr × Mode × Life × Bool × List Strat) :=
  [(.init st sub, .none, .reset, false, [.poll]), (.start st sub, .controller, .idle, true, [.poll, .irq, .dma]),
    (.daa st sub, .controller, .idle, true, [.poll, .irq]), (.setdasa st sub, .controller, .idle, true, [.poll, .irq]),
    (.probe st sub, .controller, .idle, true, [.poll]), (.busRecover st sub, .controller, .idle, false, [.poll]),
    (.tgtTx st sub, .target, .idle, false, [.poll, .irq, .dma]), (.tgtRx st sub, .target, .idle, false, [.poll, .irq, .dma]),
    (.hjReq st sub, .target, .idle, false, [.poll, .irq]), (.crReq st sub, .target, .idle, false, [.poll, .irq]),
    (.ibiReq st sub, .target, .idle, false, [.poll, .irq])]

theorem longCommand_of_gate {c : Code} {ok : Bool} {act : State → State} {g : Option Code} {s : State} (h : g = some c) :
    longCommand g ok act s = reject c s := by rw [h]; rfl

/-- Every class-L command asks its gate first, and rejects with the code that it answers. -/
theorem exec_of_gate {st : Strat} {sub : Byte} {s : State} {c : Code} :
    ∀ row ∈ longCommands st sub, gate row.2.1 row.2.2.1 row.2.2.2.1 row.2.2.2.2 st s = some c →
      exec row.1 s = .next (reject c s) := by
  have hlong : ∀ {ok : Bool} {act : State → State} {g : Option Code}, g = some c →
      (.next (longCommand g ok act s) : Result) = .next (reject c s) := fun h => congrArg _ (longCommand_of_gate h)
  simp only [longCommands, List.forall_mem_cons, List.not_mem_nil, false_imp_iff, implies_true, and_true]
  refine ⟨fun h => ?init, fun h => ?start, hlong, fun h => ?setdasa, hlong, fun h => ?recover, hlong, hlong, hlong, hlong,
    hlong⟩
  case init => simp only [exec, execInit, h]
  case start => simp only [exec, execStart, h]
  case setdasa => simp only [exec, execSetdasa, h]
  case recover => simp only [exec, execBusRecover, h]

/-- Settles O21: every command rejects with what its gate answers (`exec_of_gate`), and the gate answers the first check
that fails. -/
theorem longCommandGate : Obligations.LongCommandGate := by
  intro st sub s row hrow
  have hreject : ∀ {c : Code}, gate row.2.1 row.2.2.1 row.2.2.2.1 row.2.2.2.2 st s = some c →
      exec row.1 s = .next (reject c s) := exec_of_gate row hrow
  refine ⟨fun h => hreject (gate_busy h), fun hmode hcmdp hlife hrecov hstrat => ?_⟩
  obtain ⟨-, hstrategy⟩ := gate_of_not_busy hmode hcmdp hlife hrecov
  exact hreject (hstrategy hstrat)

/-! ## INIT, DEINIT, ABORT -/

section
variable {s : State}

theorem exec_init {st : Strat} {sub : Byte} (h : gate .none .reset false [.poll] st s = none) :
    (initMode sub = none → exec (.init st sub) s = .next (reject .invalidParam s)) ∧
      ∀ m, initMode sub = some m → exec (.init st sub) s = .next (initAccept m s) := by
  refine ⟨fun hm => ?_, fun m hm => ?_⟩ <;> simp only [exec, execInit, h, hm]

theorem engineTurn_init (u : EngineUnit) (a : PhyAnswer) (habort : s.ctl.abortreq = false) (hlife : s.ctl.life = .init) :
    engineTurn u a s = .next (initDone s) := by
  simp [engineTurn, habort, hlife]

theorem deinitOk_iff : deinitOk s = true ↔ (s.ctl.life = .init ∨ s.ctl.life = .idle) ∧ s.ctl.cmdp = false := by
  simp [deinitOk]

theorem abortOk_iff : abortOk s = true ↔
    s.ctl.mode ≠ .none ∧ (s.ctl.life = .tx ∨ s.ctl.life = .rx ∨ s.ctl.life = .txrx ∨ s.ctl.life = .tgtreq) ∧
      s.ctl.cmdp = true ∧ s.ctl.abortreq = false := by
  simp [abortOk, and_assoc, or_assoc]

end

/-- Settles O33: the gate of INIT passes in RESET, SUB names the mode, and the next ENGINE step is `initDone`. -/
theorem initCompletes : Obligations.InitCompletes := by
  intro sub s hmode hcmdp hlife
  obtain ⟨hpassed, -⟩ := gate_of_not_busy (needsBus := false) hmode hcmdp hlife nofun
  have hstrat : StratOk [.poll] .poll s := ⟨List.mem_singleton.mpr rfl, nofun⟩
  obtain ⟨hreject, haccept⟩ := exec_init (sub := sub) (hpassed hstrat)
  refine ⟨fun hcontroller htarget => hreject ((if_neg hcontroller).trans (if_neg htarget)), ?_⟩
  · intro m hm t
    refine ⟨haccept m ?_, fun u a => engineTurn_init (s := t) u a rfl rfl⟩
    rcases hm with ⟨rfl, rfl⟩ | ⟨rfl, rfl⟩ <;> rfl

/-- Settles O34: the two commands' checks as propositions (`deinitOk_iff`, `abortOk_iff`). -/
theorem deinitAbortComplete : Obligations.DeinitAbortComplete := by
  intro st sub s
  refine ⟨congrArg Host.Outcome.next ?_, congrArg Host.Outcome.next ?_⟩
  · simp only [← deinitOk_iff]
    cases deinitOk s <;> rfl
  · simp only [← abortOk_iff]
    cases abortOk s <;> rfl

end Sys2Proof.Machine
end

section
/-! SUPPORT. The controller commands START, SETDASA, PROBE and BUS_RECOVER (spec/41_controller.md R282, R294–R296): their
argument checks, their acceptance, and the steps of the one-shot commands. -/

namespace Sys2Proof.Machine

/-! ## Acceptance -/

section
variable {m : Mode} {needsBus : Bool} {strats : List Strat} {st : Strat} {s : State}

theorem Ready.gate_passed (h : Ready m s) (hrecov : needsBus = true → s.ctl.recov = false) (hst : StratOk strats st s) :
    gate m .idle needsBus strats st s = none := by
  obtain ⟨hmode, hcmdp, hlife⟩ := h
  obtain ⟨hpassed, -⟩ := gate_of_not_busy (strats := strats) (st := st) hmode hcmdp hlife hrecov
  exact hpassed hst

theorem stratOk_of_not_dma (h : st ∈ strats) (hdma : st ≠ .dma) : StratOk strats st s := ⟨h, fun hd => absurd hd hdma⟩

theorem stratOk_poll (h : .poll ∈ strats) : StratOk strats .poll s := stratOk_of_not_dma h nofun

theorem accept_eq (op : Byte) (st : Strat) (w : Word) (s : State) : accept op st w s = acceptedAs op st w s := by
  unfold accept acceptedAs
  rw [decide_not]
  rfl

end

/-! ## START -/

section
variable {s : State} {a n : Nat}

/-- The rest of a block is the block at the address after it. -/
theorem drop_bytesAt (off : Nat) : (bytesAt s a n).drop off = bytesAt s (a + off) (n - off) :=
  List.ext_getElem (by simp [bytesAt]) fun k _ _ => by simp [bytesAt, byteAt_add]

/-- A word of a block of bytes that were read. -/
theorem fieldWord_bytesAt {off : Nat} (h : off + 4 ≤ n) : fieldWord (bytesAt s a n) off = wordAt s s.mem (a + off) := by
  obtain ⟨k, hk⟩ : ∃ k, n - off = k + 4 := ⟨n - off - 4, by omega⟩
  rw [fieldWord, drop_bytesAt, hk, bytesAt]
  simp only [List.range_succ_eq_map, List.map_cons]
  rfl

/-- A byte of a block of bytes that were read. -/
theorem fieldByte_bytesAt {off : Nat} (h : off < n) : fieldByte (bytesAt s a n) off = Memory.read s.mem (byteAt s a off) := by
  obtain ⟨k, hk⟩ : ∃ k, n - off = k + 1 := ⟨n - off - 1, by omega⟩
  rw [fieldByte, drop_bytesAt, hk, bytesAt, List.range_succ_eq_map, List.map_cons, List.headD_cons, byteAt_add]
  rfl

/-- The checks of START (R282). -/
def StartOk (s : State) : Prop :=
  s.arg.arg0.toNat % 4 = 0 ∧ (∀ k, k < 48 → readable s (byteAt s s.arg.arg0.toNat k) = true) ∧
    Memory.read s.mem (byteAt s s.arg.arg0.toNat 0x25) = 1 ∧ wordAt s s.mem (s.arg.arg0.toNat + 0x18) ≠ 0 ∧
    (wordAt s s.mem (s.arg.arg0.toNat + 0x00)).toNat % 4 = 0

/-- The context is taken exactly where the checks pass, and it is the 48 bytes in memory. -/
theorem startContext_eq_some_iff {c : List Byte} :
    startContext s = some c ↔ StartOk s ∧ bytesAt s s.arg.arg0.toNat 48 = c := by
  have hbuilt : fieldByte (bytesAt s s.arg.arg0.toNat 48) 0x25 = _ := fieldByte_bytesAt (by decide)
  have hwords : fieldWord (bytesAt s s.arg.arg0.toNat 48) 0x18 = _ := fieldWord_bytesAt (by decide)
  have hbuffer : fieldWord (bytesAt s s.arg.arg0.toNat 48) 0x00 = _ := fieldWord_bytesAt (by decide)
  rw [startContext, Option.ite_none_right_eq_some, Option.filter_eq_some_iff, memRead_eq_some_iff, aligned4_iff]
  simp only [Bool.and_eq_true, beq_iff_eq, bne_iff_ne, aligned4_iff]
  constructor
  · rintro ⟨halign, ⟨hread, rfl⟩, ⟨hb, hw⟩, hc⟩
    rw [hbuilt] at hb
    rw [hwords] at hw
    rw [hbuffer] at hc
    exact ⟨⟨halign, hread, hb, hw, hc⟩, rfl⟩
  · rintro ⟨⟨halign, hread, hb, hw, hc⟩, rfl⟩
    rw [hbuilt, hwords, hbuffer]
    exact ⟨halign, ⟨hread, rfl⟩, ⟨hb, hw⟩, hc⟩

theorem exec_start {st : Strat} {sub : Byte} (h : gate .controller .idle true [.poll, .irq, .dma] st s = none) :
    (¬StartOk s → exec (.start st sub) s = .next (reject .invalidParam s)) ∧
      (StartOk s → exec (.start st sub) s = .next (startAccept st (bytesAt s s.arg.arg0.toNat 48) s)) := by
  refine ⟨fun hnot => ?_, fun hok => ?_⟩
  · have hnone : startContext s = none := Option.eq_none_iff_forall_ne_some.mpr fun c hc =>
      hnot (startContext_eq_some_iff.mp hc).1
    simp only [exec, execStart, h, hnone]
  · simp only [exec, execStart, h, startContext_eq_some_iff.mpr ⟨hok, rfl⟩]

end

/-- Settles O35: the context is taken exactly where START's checks pass (`startContext_eq_some_iff`), and its fields are the
words and bytes in memory. -/
theorem startAccepted : Obligations.StartAccepted := by
  intro st sub s hready hrecov hst ctx field pointer built dirmix
  obtain ⟨hrejected, haccepted⟩ := exec_start (sub := sub) (hready.gate_passed (fun _ => hrecov) hst)
  refine ⟨fun hbad => hrejected ?_, fun halign hread hbuilt hwords hbuffer => ?_⟩
  · rintro ⟨halign, hread, hbuilt, hwords, hbuffer⟩
    rcases hbad with h | ⟨k, hk, h⟩ | h | h | h
    · exact h halign
    · exact Bool.false_ne_true (h.symm.trans (hread k hk))
    · exact h hbuilt
    · exact hwords h
    · exact h hbuffer
  · rw [haccepted ⟨halign, hread, hbuilt, hwords, hbuffer⟩, startAccept, accept_eq]
    have hfield : ∀ {off : Nat}, off + 4 ≤ 48 → fieldWord (bytesAt s ctx 48) off = field off := fieldWord_bytesAt
    have hdirmix : fieldByte (bytesAt s ctx 48) 0x26 = dirmix := fieldByte_bytesAt (by decide)
    rw [hfield (off := 0x00) (by decide), hfield (off := 0x08) (by decide), hfield (off := 0x10) (by decide),
      hfield (off := 0x14) (by decide), hfield (off := 0x18) (by decide), hfield (off := 0x1C) (by decide),
      hfield (off := 0x20) (by decide), hdirmix]
    rfl

/-! ## PHY requests of the controller -/

section
variable {k : State → State} {s : State} {j : ErrCode}

theorem sendHeader_ack (h : Answered .ack s) : sendHeader k s = k (driven (.addr 0x7E false) s) := phy_answered h rfl

theorem sendHeader_nack (h : Answered .nack s) : sendHeader k s = raiseError .ce2 (driven (.addr 0x7E false) s) :=
  phy_answered h rfl

theorem sendHeader_err (hj : j ∈ [ErrCode.ce0, .ce1, .ce3, .stall]) (h : Answered (.err j) s) :
    sendHeader k s = raiseError j (driven (.addr 0x7E false) s) :=
  phy_answered h ((controllerKind_iff j).mpr hj)

theorem sendByte_ok {b : Byte} (h : Answered .ok s) : sendByte b k s = k (driven (.wbyte b false) s) := phy_answered h rfl

theorem sendByte_err {b : Byte} (hj : j ∈ [ErrCode.ce0, .ce1, .ce3, .stall]) (h : Answered (.err j) s) :
    sendByte b k s = raiseError j (driven (.wbyte b false) s) :=
  phy_answered h ((controllerKind_iff j).mpr hj)

end

/-! ## Acceptance of the one-shot commands -/

section
variable {st : Strat} {sub : Byte} {s : State}

theorem argFits7_iff (w : Word) : argFits7 w = true ↔ w.toNat < 128 := by
  rw [argFits7, beq_iff_eq, ← BitVec.toNat_inj]
  simp only [BitVec.toNat_ushiftRight, Nat.shiftRight_eq_div_pow, BitVec.toNat_ofNat]
  omega

theorem setdasaArgs_bad_iff : (!setdasaArgsOk s) = true ↔
    128 ≤ s.arg.arg0.toNat ∨ 128 ≤ s.arg.arg1.toNat ∨ bitField s.arg.arg0 0 7 = 0x7E := by
  rw [← not_iff_not]
  simp [setdasaArgsOk, argFits7_iff, argAddr, broadcastAddr, and_assoc]

theorem setdasaAccept_eq : setdasaAccept st s =
    { acceptedAs 0x23 st s.arg.arg2 s with
      ctl.life := .tx, cnt.datacnt := 0, work.opAddr := bitField s.arg.arg0 0 7, work.opData := setdasaDa s } := by
  rw [setdasaAccept, accept_eq]
  rfl

theorem probeArgsOk_iff : probeArgsOk sub s = true ↔
    ¬(1 < sub.toNat ∨ 128 ≤ s.arg.arg0.toNat ∨ s.arg.arg1 = 0 ∨
      (sub = 0 ∧ validDa (bitField s.arg.arg0 0 7) = false) ∨ (sub = 1 ∧ bitField s.arg.arg0 0 7 = 0x7E)) := by
  rcases Nat.lt_or_ge 1 sub.toNat with hsub | hsub
  · simp [probeArgsOk, hsub]
  · obtain rfl | rfl : sub = 0 ∨ sub = 1 := by
      rw [← BitVec.toNat_inj, ← BitVec.toNat_inj]
      exact Nat.le_one_iff_eq_zero_or_eq_one.mp hsub
    all_goals simp [probeArgsOk, argFits7_iff, argAddr, broadcastAddr, and_assoc]

theorem probeAccept_eq : probeAccept st sub s =
    { acceptedAs 0x24 st s.arg.arg2 s with
      ctl.life := .tx
      cnt.datacnt := 0
      work.opAddr := bitField s.arg.arg0 0 7
      work.opI2c := decide (sub = 1)
      work.opOk := true
      work.trial := 1
      work.trials := s.arg.arg1 } := by
  rw [probeAccept, accept_eq]
  rfl

theorem exec_setdasa (h : gate .controller .idle true [.poll, .irq] st s = none) :
    exec (.setdasa st sub) s = .next
      (if !setdasaArgsOk s then reject .invalidParam s
      else if !validDa (setdasaDa s) then rejectDynaddr s
      else setdasaAccept st s) := by
  simp only [exec, execSetdasa, h]

theorem exec_probe (h : gate .controller .idle true [.poll] st s = none) :
    exec (.probe st sub) s = .next (if probeArgsOk sub s then probeAccept st sub s else reject .invalidParam s) := by
  simp only [exec, execProbe, h, longCommand]

theorem exec_busRecover (h : gate .controller .idle false [.poll] st s = none) :
    exec (.busRecover st sub) s = .next { acceptedAs 0x25 st 0 s with ctl.life := .tx } := by
  simp only [exec, execBusRecover, h, accept_eq]
  rfl

end

/-! ## Steps of the one-shot commands -/

section
variable {s : State} {next : Micro} {j : ErrCode}

theorem oneShotStart_ok (h : Answered .ok s) :
    oneShotStart next s = { driven .start s with seq.frame := true, work.micro := next } := phy_answered h rfl

theorem oneShotStart_arb {b : Addr7} {w : Bool} (h : Answered (.arb b w) s) :
    oneShotStart next s = { driven .start s with seq.frame := true, work.request := .ack b w } := phy_answered h rfl

theorem probeAddr_ack {a : Addr7} (h : Answered .ack s) :
    probeAddr a next s = { driven (.addr a false) s with work.micro := next } := phy_answered h rfl

theorem probeAddr_nack {a : Addr7} (h : Answered .nack s) :
    probeAddr a next s = { driven (.addr a false) s with work.micro := .stop, work.opOk := false } := phy_answered h rfl

theorem probeAddr_err {a : Addr7} (hj : j ∈ [ErrCode.ce0, .ce1, .ce3, .stall]) (h : Answered (.err j) s) :
    probeAddr a next s = raiseError j (driven (.addr a false) s) := phy_answered h ((controllerKind_iff j).mpr hj)

/-! ### SETDASA (R294) -/

theorem setdasaStep_start (h : s.work.micro = .start) : setdasaStep s = oneShotStart .hdr s := by rw [setdasaStep, h]

theorem setdasaStep_hdr (h : s.work.micro = .hdr) : setdasaStep s = sendHeader (goto .code) s := by rw [setdasaStep, h]

theorem setdasaStep_code (h : s.work.micro = .code) : setdasaStep s = sendByte 0x87 (goto .rstart) s := by
  rw [setdasaStep, h]
  rfl

theorem setdasaStep_rstart (h : s.work.micro = .rstart) (ha : Answered .ok s) :
    setdasaStep s = { driven .rstart s with work.micro := .addr } := by
  rw [setdasaStep, h]
  exact phy_answered ha rfl

theorem setdasaStep_addr_ack (h : s.work.micro = .addr) (ha : Answered .ack s) :
    setdasaStep s = { driven (.addr s.work.opAddr false) s with work.micro := .data } := by
  rw [setdasaStep, h]
  exact phy_answered ha rfl

theorem setdasaStep_addr_nack (h : s.work.micro = .addr) (ha : Answered .nack s) :
    setdasaStep s = raiseError .anack (driven (.addr s.work.opAddr false) s) := by
  rw [setdasaStep, h]
  exact phy_answered ha rfl

theorem setdasaStep_addr_err (h : s.work.micro = .addr) (hj : j ∈ [ErrCode.ce0, .ce1, .ce3, .stall])
    (ha : Answered (.err j) s) : setdasaStep s = raiseError j (driven (.addr s.work.opAddr false) s) := by
  rw [setdasaStep, h]
  exact phy_answered ha ((controllerKind_iff j).mpr hj)

theorem setdasaStep_data (h : s.work.micro = .data) :
    setdasaStep s = sendByte (s.work.opData ++ 0#1) (fun t => goto .stop { t with cnt.datacnt := 1 }) s := by
  rw [setdasaStep, h]
  rfl

theorem setdasaStep_stop (h : s.work.micro = .stop) (ha : Answered .ok s) :
    setdasaStep s = endedWith 0 0 0 { driven .stop s with seq.frame := false, work.micro := .start } := by
  rw [setdasaStep, h]
  exact phy_answered ha rfl

/-! ### PROBE and BUS_RECOVER (R295, R296) -/

theorem probeStep_start (h : s.work.micro = .start) :
    probeStep s = oneShotStart (if s.work.opI2c then .addr else .hdr) s := by rw [probeStep, h]

theorem probeStep_hdr (h : s.work.micro = .hdr) : probeStep s = probeAddr 0x7E .rstart s := by
  rw [probeStep, h]
  rfl

theorem probeStep_rstart (h : s.work.micro = .rstart) (ha : Answered .ok s) :
    probeStep s = { driven .rstart s with work.micro := .addr } := by
  rw [probeStep, h]
  exact phy_answered ha rfl

theorem probeStep_addr (h : s.work.micro = .addr) : probeStep s = probeAddr s.work.opAddr .stop s := by rw [probeStep, h]

theorem probeStep_stop (h : s.work.micro = .stop) (ha : Answered .ok s) :
    probeStep s = probeTrialEnd { driven .stop s with seq.frame := false } := by
  rw [probeStep, h]
  exact phy_answered ha rfl

theorem recoverStep_ok (ha : Answered .ok s) :
    recoverStep s =
      endedWith 0 0 0 { driven .recover s with ctl.recov := false, seq.frame := false, work.micro := .start } :=
  phy_answered ha rfl

end

/-- Settles O36: the argument checks as propositions, then one row for each request of a one-shot command and its answer. -/
theorem oneShotsAccepted : Obligations.OneShotsAccepted := by
  intro st sub s
  refine ⟨?setdasa, ?probe, ?recover, ?steps⟩
  case setdasa =>
    intro hready hrecov hst sa da
    have hstrat : StratOk [.poll, .irq] st s := by 
      rcases hst with rfl | rfl <;> exact stratOk_of_not_dma (by decide) nofun
    have hda : (!validDa (setdasaDa s)) = true ↔ validDa da = false := by rw [Bool.not_eq_true']; rfl
    rw [exec_setdasa (hready.gate_passed (fun _ => hrecov) hstrat), setdasaAccept_eq]
    exact congrArg _ (if_congr setdasaArgs_bad_iff rfl (if_congr hda rfl rfl))
  case probe =>
    rintro hready hrecov rfl a
    rw [exec_probe (hready.gate_passed (fun _ => hrecov) (stratOk_poll (by decide))), probeAccept_eq]
    exact congrArg _ ((if_congr probeArgsOk_iff rfl rfl).trans (ite_not ..))
  case recover =>
    rintro hready rfl
    exact exec_busRecover (hready.gate_passed nofun (stratOk_poll (by decide)))
  case steps =>
    intro hidle hlife hcmdp head addr code newDa go opened failed closed
    have hdaa : s.ctl.life ≠ .daa := by rw [hlife]; decide
    obtain ⟨hsetdasa, hprobe, hrecover⟩ := controllerStep_of_oneShot hidle hdaa hcmdp
    have setdasa : ∀ {t}, s.ctl.pendop = 0x23 → setdasaStep s = t → controllerStep s = .next t := fun hop h =>
      (hsetdasa hop).trans (congrArg _ h)
    have probe : ∀ {t}, s.ctl.pendop = 0x24 → probeStep s = t → controllerStep s = .next t := fun hop h =>
      (hprobe hop).trans (congrArg _ h)
    refine ⟨?answers, ?arb, ?errors⟩
    case answers =>
      simp only [List.forall_mem_cons, List.not_mem_nil, false_imp_iff, implies_true, and_true]
      exact ⟨fun hop hm ha => setdasa hop ((setdasaStep_start hm).trans (oneShotStart_ok ha)),
        fun hop hm ha => setdasa hop ((setdasaStep_hdr hm).trans (sendHeader_ack ha)),
        fun hop hm ha => setdasa hop ((setdasaStep_hdr hm).trans (sendHeader_nack ha)),
        fun hop hm ha => setdasa hop ((setdasaStep_code hm).trans (sendByte_ok ha)),
        fun hop hm ha => setdasa hop (setdasaStep_rstart hm ha),
        fun hop hm ha => setdasa hop (setdasaStep_addr_ack hm ha),
        fun hop hm ha => setdasa hop (setdasaStep_addr_nack hm ha),
        fun hop hm ha => setdasa hop ((setdasaStep_data hm).trans (sendByte_ok ha)),
        fun hop hm ha => setdasa hop (setdasaStep_stop hm ha),
        fun hop hm ha => probe hop ((probeStep_start hm).trans (oneShotStart_ok ha)),
        fun hop hm ha => probe hop ((probeStep_hdr hm).trans (probeAddr_ack ha)),
        fun hop hm ha => probe hop ((probeStep_hdr hm).trans (probeAddr_nack ha)),
        fun hop hm ha => probe hop (probeStep_rstart hm ha),
        fun hop hm ha => probe hop ((probeStep_addr hm).trans (probeAddr_ack ha)),
        fun hop hm ha => probe hop ((probeStep_addr hm).trans (probeAddr_nack ha)),
        fun hop hm ha => probe hop (probeStep_stop hm ha),
        fun hop _ ha => (hrecover hop).trans (congrArg _ (recoverStep_ok ha))⟩
    case arb =>
      rintro b w (hop | hop) hm ha
      · exact setdasa hop ((setdasaStep_start hm).trans (oneShotStart_arb ha))
      · exact probe hop ((probeStep_start hm).trans (oneShotStart_arb ha))
    case errors =>
      intro k hk ha
      simp only [List.forall_mem_cons, List.not_mem_nil, false_imp_iff, implies_true, and_true]
      exact ⟨fun hop hm => setdasa hop ((setdasaStep_hdr hm).trans (sendHeader_err hk ha)),
        fun hop hm => setdasa hop ((setdasaStep_code hm).trans (sendByte_err hk ha)),
        fun hop hm => setdasa hop (setdasaStep_addr_err hm hk ha),
        fun hop hm => setdasa hop ((setdasaStep_data hm).trans (sendByte_err hk ha)),
        fun hop hm => probe hop ((probeStep_hdr hm).trans (probeAddr_err hk ha)),
        fun hop hm => probe hop ((probeStep_addr hm).trans (probeAddr_err hk ha))⟩

end Sys2Proof.Machine
end

section
/-! SUPPORT. The sequencer's steps for the control words up to their data (spec/41_controller.md R284–R287, R289, R291, R302,
R303): which word a turn runs, its fetch, its message start, its header, code and address. -/

namespace Sys2Proof.Machine

/-! ## Which word a step runs (R284, R285) -/

section
variable {s : State} {w : Word} {ws : List Word} {i : Instr} {r : List Byte}

theorem controllerStep_of_start (hrequest : s.work.request = .idle) (hdaa : s.ctl.life ≠ .daa) (hcmdp : s.ctl.cmdp = true)
    (hop : s.ctl.pendop = opStart) : controllerStep s = sequencerStep s := by
  simp [controllerStep, hrequest, hdaa, pending, hcmdp, hop]

theorem fetchStep_suspended (h : s.ctl.suspended = true) : fetchStep s = .next s := if_pos h

theorem fetchStep_of_ok (hrun : s.ctl.suspended = false) (hhead : s.fifo.cfifo = w :: ws)
    (hdecode : decode .control (bytes32 w) = .ok (i, r)) : fetchStep s = exec i s := by
  simp [fetchStep, hrun, hhead, hdecode]

theorem fetchStep_of_error {e : DecodeError} (hrun : s.ctl.suspended = false) (hhead : s.fifo.cfifo = w :: ws)
    (hdecode : decode .control (bytes32 w) = .error e) : fetchStep s = .next (fetchWord w false s) := by
  simp [fetchStep, hrun, hhead, hdecode]

/-- With CFIFO empty: wait while words are to come, COVR where the frame was left open. -/
theorem fetchStep_of_empty (hrun : s.ctl.suspended = false) (hempty : s.fifo.cfifo = []) :
    fetchStep s = .next (if s.cnt.ctrlrem = 0 ∧ s.seq.frame = true then raiseError .covr s else s) := by
  simp [fetchStep, hrun, hempty, ite_and]

theorem sequencerStep_of_fetch (h : s.seq.phase = .fetch) : sequencerStep s = fetchStep s := by rw [sequencerStep, h]

theorem sequencerStep_of_later (h : s.seq.phase = .addr ∨ s.seq.phase = .data ∨ s.seq.phase = .fin)
    (hdecode : decode .control (bytes32 s.seq.cur) = .ok (i, r)) : sequencerStep s = exec i s := by
  rcases h with h | h | h <;> simp only [sequencerStep, h, hdecode]

end

/-- Settles O6: an ENGINE turn of a START in flight is a step of the sequencer, which decodes the word at hand. -/
theorem stepRunsControlWord : Obligations.StepRunsControlWord := by
  intro s u a turns w ws i r hlegal hagenda hmode habort hlife hidle hcmdp hop hdecode
  let c := { s with env.agenda := turns, env.cue := .answer a }
  have hrun : (c.ctl.life ≠ .reset ∧ c.ctl.life ≠ .init) ∧ c.ctl.life ≠ .daa := by
    change (s.ctl.life ≠ .reset ∧ s.ctl.life ≠ .init) ∧ s.ctl.life ≠ .daa
    rcases hlife with h | h | h <;> rw [h] <;> decide
  obtain ⟨hrunning, hdaa⟩ := hrun
  have hstep : step s = sequencerStep c := calc
    step s = engineTurn u a c := step_of_agenda hlegal hagenda
    _ = controllerStep c := engineTurn_controller u a habort hrunning hmode
    _ = sequencerStep c := controllerStep_of_start hidle hdaa hcmdp hop
  refine ⟨?_, ?_⟩
  · rintro ⟨hphase, hsuspended⟩ hhead
    exact hstep.trans ((sequencerStep_of_fetch (s := c) hphase).trans (fetchStep_of_ok (s := c) hsuspended hhead hdecode))
  · rintro hphase rfl
    exact hstep.trans (sequencerStep_of_later (s := c) hphase hdecode)

/-! ## The meaning of a word in each phase -/

section
variable {mend arb rnw : Bool} {a : Addr7} {code : Byte} {n : BitVec 16} {s : State}

/-- The four control words. -/
def controlWords (mend arb rnw : Bool) (a : Addr7) (code : Byte) (n : BitVec 16) : List Instr :=
  [.cwCcc mend arb code n, .cwPriv mend arb a rnw n, .cwI2c mend arb a rnw n, .cwDirect mend arb a rnw n]

theorem exec_suspended (h : s.ctl.suspended = true) (hphase : s.seq.phase = .fetch ∨ s.seq.phase = .addr) :
    ∀ i ∈ controlWords mend arb rnw a code n, exec i s = .next s := by
  simp only [controlWords, List.forall_mem_cons, List.not_mem_nil, false_imp_iff, implies_true, and_true]
  rcases hphase with hphase | hphase <;>
    simp [exec, execCwCcc, execCwPriv, execCwI2c, execCwDirect, fetchWord, h, hphase]

theorem exec_fetch (h : s.seq.phase = .fetch) :
    exec (.cwCcc mend arb code n) s = .next (fetchWord (cccWord mend arb code n) (cccLegal mend arb code s) s) ∧
      exec (.cwPriv mend arb a rnw n) s = .next (fetchWord (addrWord 2 mend arb a rnw n) (!s.seq.ccchdr) s) ∧
      exec (.cwI2c mend arb a rnw n) s = .next (fetchWord (addrWord 3 mend arb a rnw n) (!s.seq.ccchdr) s) ∧
      exec (.cwDirect mend arb a rnw n) s =
        .next (fetchWord (addrWord 4 mend arb a rnw n) (s.seq.ccchdr && !arb) s) := by
  refine ⟨?_, ?_, ?_, ?_⟩ <;> simp only [exec, execCwCcc, execCwPriv, execCwI2c, execCwDirect, h] <;> rfl

theorem exec_addr (h : Sequencing .addr s) :
    exec (.cwCcc mend arb code n) s = .next (cccAddr code n s) ∧
      exec (.cwPriv mend arb a rnw n) s = .next (privAddr arb a rnw n s) ∧
      exec (.cwI2c mend arb a rnw n) s = .next (privAddr arb a rnw n s) ∧
      exec (.cwDirect mend arb a rnw n) s = .next (directAddr a rnw n s) := by
  obtain ⟨hphase, hrun⟩ := h
  simp [exec, execCwCcc, execCwPriv, execCwI2c, execCwDirect, hphase, hrun]

theorem exec_data (h : s.seq.phase = .data) :
    exec (.cwCcc mend arb code n) s = .next (writeData false n (cccSent code) s) ∧
      exec (.cwPriv mend arb a rnw n) s = .next (privData false rnw n s) ∧
      exec (.cwI2c mend arb a rnw n) s = .next (privData true rnw n s) ∧
      exec (.cwDirect mend arb a rnw n) s = .next (directData a rnw n s) := by
  simp only [exec, execCwCcc, execCwPriv, execCwI2c, execCwDirect, h, and_self]

theorem exec_fin (h : s.seq.phase = .fin) :
    ∀ i ∈ controlWords mend arb rnw a code n, exec i s = .next (endWord mend s) := by
  simp only [controlWords, List.forall_mem_cons, List.not_mem_nil, false_imp_iff, implies_true, and_true, exec, execCwCcc,
    execCwPriv, execCwI2c, execCwDirect, h]

end

/-! ## Fetch (R285, R291) -/

section
variable {s : State}

/-- The head of CFIFO has become CUR. -/
def loaded (w : Word) (s : State) : State :=
  { s with fifo.cfifo := s.fifo.cfifo.tail, seq.cur := w, seq.curdone := 0, seq.early := false, seq.nackb := false }

theorem fetchWord_eq (w : Word) (legal : Bool) (h : s.ctl.suspended = false) : fetchWord w legal s =
    if legal then { loaded w s with seq.phase := .addr, work.micro := .start } else raiseError .covr (loaded w s) := by
  simp only [fetchWord, h, Bool.false_eq_true, if_false]
  rfl

end

/-- Settles O45: the legality check of each word (R291) is the argument of `fetchWord`; the empty CFIFO is the case of
`fetchStep`. -/
theorem wordFetched : Obligations.WordFetched := by
  intro mend arb rnw a code n s
  refine ⟨fun hsuspended => ⟨exec_suspended hsuspended, fun _ => fetchStep_suspended hsuspended⟩, ?_⟩
  rintro ⟨hphase, hrun⟩ loaded goes
  obtain ⟨hccc, hpriv, hi2c, hdirect⟩ :=
    exec_fetch (mend := mend) (arb := arb) (rnw := rnw) (a := a) (code := code) (n := n) hphase
  have hgoes : ∀ (w : Word) (legal : Bool), fetchWord w legal s = goes w legal := fun w legal => fetchWord_eq w legal hrun
  have hlegal : cccLegal mend arb code s = (!arb && !(mend && decide (0x80 ≤ code.toNat)) && !s.seq.ccchdr) := by
    rw [cccLegal, Bool.and_comm mend]
  simp only [hgoes, hlegal] at hccc hpriv hi2c hdirect
  refine ⟨hccc, hpriv, hi2c, hdirect, fun w ws e hhead hdecode => ?_, fetchStep_of_empty hrun⟩
  rw [fetchStep_of_error hrun hhead hdecode, hgoes]

/-! ## Message start (R286) -/

section
variable {next : Bool → Micro} {i : Instr} {s : State}

theorem messageStart_ok (hframe : s.seq.frame = false) (h : Answered .ok s) : messageStart next s =
    { driven .start s with seq.frame := true, seq.bws := true, work.micro := next true } :=
  (if_neg (ne_true_of_eq_false hframe)).trans (phy_answered h rfl)

theorem messageStart_arb {b : Addr7} {w : Bool} (hframe : s.seq.frame = false) (h : Answered (.arb b w) s) :
    messageStart next s = { driven .start s with seq.frame := true, work.request := .ack b w } :=
  (if_neg (ne_true_of_eq_false hframe)).trans (phy_answered h rfl)

theorem messageStart_open (hframe : s.seq.frame = true) (h : Answered .ok s) : messageStart next s =
    { driven .rstart s with seq.bws := false, work.micro := next false } :=
  (if_pos hframe).trans (phy_answered h rfl)

/-- What a word does whose message start is `messageStart`. -/
theorem exec_messageStart (hexec : exec i s = .next (messageStart next s)) :
    (s.seq.frame = false →
        (Answered .ok s →
          exec i s = .next { driven .start s with seq.frame := true, seq.bws := true, work.micro := next true }) ∧
        ∀ b w, Answered (.arb b w) s →
          exec i s = .next { driven .start s with seq.frame := true, work.request := .ack b w }) ∧
      (s.seq.frame = true → Answered .ok s →
        exec i s = .next { driven .rstart s with seq.bws := false, work.micro := next false }) := by
  rw [hexec]
  exact ⟨fun hf => ⟨fun h => congrArg _ (messageStart_ok hf h), fun b w h => congrArg _ (messageStart_arb hf h)⟩,
    fun hf h => congrArg _ (messageStart_open hf h)⟩

end

/-- Settles O46: three of the words start with `messageStart`, DIRECT always with a repeated START. -/
theorem wordStarts : Obligations.WordStarts := by
  intro mend arb rnw a code n s hseq hmicro
  obtain ⟨hccc, hpriv, hi2c, hdirect⟩ :=
    exec_addr (mend := mend) (arb := arb) (rnw := rnw) (a := a) (code := code) (n := n) hseq
  simp only [cccAddr, privAddr, directAddr, hmicro] at hccc hpriv hi2c hdirect
  refine ⟨?_, fun h => ?_⟩
  · simp only [List.forall_mem_cons, List.not_mem_nil, false_imp_iff, implies_true, and_true]
    exact ⟨exec_messageStart hccc, exec_messageStart hpriv, exec_messageStart hi2c⟩
  · rw [hdirect, phy_answered h rfl]
    rfl

/-! ## Header, code and address (R287, R289, R302, R303) -/

section
variable {a : Addr7} {rnw : Bool} {n : BitVec 16} {k : State → State} {s : State} {j : ErrCode}

theorem sendAddress_ack (h : Answered .ack s) : sendAddress a rnw k s = k (driven (.addr a rnw) s) := phy_answered h rfl

theorem sendAddress_nack (h : Answered .nack s) :
    sendAddress a rnw k s = raiseError .anack { driven (.addr a rnw) s with seq.nackb := true } := phy_answered h rfl

theorem sendAddress_err (hj : j ∈ [ErrCode.ce0, .ce1, .ce3, .stall]) (h : Answered (.err j) s) :
    sendAddress a rnw k s = raiseError j (driven (.addr a rnw) s) := phy_answered h ((controllerKind_iff j).mpr hj)

/-- The DIRECT word of a direct CCC is next (R287). -/
def directFollows (s : State) : State := enter .fetch .start { s with seq.ccchdr := true }

/-- The broadcast part of a direct CCC is followed by its DIRECT word, that of another CCC is the message. -/
theorem cccSent_eq (code : Byte) : cccSent code = if decide (0x80 ≤ code.toNat) then directFollows else messageDone := by
  funext s
  rw [ite_apply]
  simp only [decide_eq_true_eq]
  rfl

/-! ### The end of a DIRECT word (R289, spec/46_events.md R530) -/

theorem directDone_unchecked (h : ¬(rnw = true ∧ s.seq.ccclast = 0x91)) : directDone a rnw s = messageDone s := by
  rw [directDone, if_neg (by simpa using h)]

theorem directDone_empty (hlast : s.seq.ccclast = 0x91) (hdone : s.seq.curdone = 0) :
    directDone a true s = raiseError .ce3 s := by
  simp [directDone, hlast, hdone]

theorem directDone_checked (hlast : s.seq.ccclast = 0x91) (hdone : s.seq.curdone ≠ 0) :
    directDone a true s =
      if acccrOk a s.work.lastRx then messageDone { s with seq.handover := true } else raiseError .derr s := by
  rw [directDone, if_pos (by simp [hlast]), if_neg hdone]

end

section
variable {i : Instr} {m : Micro} {a : Addr7} {rnw : Bool} {k : State → State} {s : State}

/-- What a word does whose next request is the header. -/
theorem exec_sendHeader (hexec : exec i s = .next (sendHeader (goto m) s)) :
    (Answered .ack s → exec i s = .next { driven (.addr 0x7E false) s with work.micro := m }) ∧
      (Answered .nack s → exec i s = .next (raiseError .ce2 (driven (.addr 0x7E false) s))) ∧
      ∀ j ∈ [ErrCode.ce0, .ce1, .ce3, .stall], Answered (.err j) s →
        exec i s = .next (raiseError j (driven (.addr 0x7E false) s)) := by
  rw [hexec]
  exact ⟨fun h => congrArg _ (sendHeader_ack h), fun h => congrArg _ (sendHeader_nack h),
    fun j hj h => congrArg _ (sendHeader_err hj h)⟩

/-- What a word does whose next request is its address. -/
theorem exec_sendAddress (hexec : exec i s = .next (sendAddress a rnw k s)) :
    (Answered .nack s →
        exec i s = .next (raiseError .anack { driven (.addr a rnw) s with seq.nackb := true })) ∧
      (∀ j ∈ [ErrCode.ce0, .ce1, .ce3, .stall], Answered (.err j) s →
        exec i s = .next (raiseError j (driven (.addr a rnw) s))) ∧
      (Answered .ack s → exec i s = .next (k (driven (.addr a rnw) s))) := by
  rw [hexec]
  exact ⟨fun h => congrArg _ (sendAddress_nack h), fun j hj h => congrArg _ (sendAddress_err hj h),
    fun h => congrArg _ (sendAddress_ack h)⟩

end

/-- Settles O47: each request of S_ADDR with its answers, and what follows the last of them. -/
theorem wordAddressed : Obligations.WordAddressed := by
  intro mend arb rnw a code n s hseq next kinds head coded called
  obtain ⟨hccc, hpriv, hi2c, hdirect⟩ :=
    exec_addr (mend := mend) (arb := arb) (rnw := rnw) (a := a) (code := code) (n := n) hseq
  refine ⟨fun hmicro => ?header, fun hmicro ha => ?rstart, fun hmicro => ?code, fun hmicro => ?address⟩
  all_goals simp only [cccAddr, privAddr, directAddr, hmicro] at hccc hpriv hi2c hdirect
  case header =>
    simp only [List.forall_mem_cons, List.not_mem_nil, false_imp_iff, implies_true, and_true]
    exact ⟨exec_sendHeader hccc, exec_sendHeader hpriv, exec_sendHeader hi2c⟩
  case rstart =>
    simp only [List.forall_mem_cons, List.not_mem_nil, false_imp_iff, implies_true, and_true]
    exact ⟨hpriv.trans (congrArg _ (phy_answered ha rfl)), hi2c.trans (congrArg _ (phy_answered ha rfl))⟩
  case code =>
    rw [hccc]
    refine ⟨fun h => congrArg _ ((sendByte_ok h).trans ?_), fun k hk h => congrArg _ (sendByte_err hk h)⟩
    by_cases hcode : code.toNat < 0x80
    · rw [if_pos hcode, cccSent_eq, if_neg (by simpa using hcode)]
      rfl
    · rw [if_neg hcode, cccSent_eq, if_pos (by simpa using hcode)]
      by_cases hn : n = 0
      · rw [toData, if_pos hn, if_pos hn]
        simp only [next, if_pos hn]
        rfl
      · rw [toData, if_neg hn, if_neg hn]
        simp only [next, if_neg hn]
        rfl
  case address =>
    obtain ⟨hpnack, hperr, hpack⟩ := exec_sendAddress hpriv
    obtain ⟨hinack, hierr, hiack⟩ := exec_sendAddress hi2c
    obtain ⟨hdnack, hderr, hdack⟩ := exec_sendAddress hdirect
    simp only [List.forall_mem_cons, List.not_mem_nil, false_imp_iff, implies_true, and_true]
    refine ⟨⟨⟨hpnack, hperr, fun h _ => ?_⟩, ⟨hinack, hierr, fun h _ => ?_⟩, hdnack, hderr, fun h hcheck => ?_⟩,
      fun h hread hn hlast hdone => ?_⟩
    · rw [hpack h, if_neg nofun]
      rfl
    · rw [hiack h, if_neg nofun]
      rfl
    · rw [hdack h, if_pos trivial]
      refine congrArg _ (if_ctx_congr Iff.rfl (fun hn => ?_) fun _ => rfl)
      exact directDone_unchecked fun ⟨hread, hlast⟩ => hcheck ⟨hread, hn, hlast⟩
    · subst hread hn
      rw [hdack h]
      exact congrArg _ (directDone_empty hlast hdone)

end Sys2Proof.Machine
end

section
/-! SUPPORT. The sequencer's steps for the data bytes and the end of a control word (spec/41_controller.md R287–R290, R302,
R303; spec/46_events.md R530). -/

namespace Sys2Proof.Machine

/-! ## A byte written (R287–R289, R302, R303) -/

section
variable {i2c : Bool} {n : BitVec 16} {done : State → State} {b : Byte} {bs : List Byte} {s : State} {j : ErrCode}

/-- With TXFIFO empty the word waits while the MOVER can still deliver. -/
theorem writeData_empty (h : s.fifo.txfifo = []) :
    writeData i2c n done s = if s.cnt.txrem = 0 then raiseError .dovr s else s := by
  have hwait : 0 < s.cnt.txrem.toNat ↔ ¬s.cnt.txrem = 0 := by
    rw [Nat.pos_iff_ne_zero, ← BitVec.toNat_inj]
    rfl
  rw [writeData, nextTxByte, h]
  exact (if_congr hwait rfl rfl).trans (ite_not ..)

theorem popTx_cons (h : s.fifo.txfifo = b :: bs) : popTx s = { s with fifo.txfifo := bs } := by
  rw [popTx, h]
  rfl

theorem writeData_ok (h : s.fifo.txfifo = b :: bs) (ha : Answered .ok s) : writeData i2c n done s =
    afterByte n done
      { driven (.wbyte b i2c) s with
        fifo.txfifo := bs, cnt.datacnt := s.cnt.datacnt + 1, seq.curdone := s.seq.curdone + 1 } := by
  have hpop : popTx (driven (.wbyte b i2c) s) = { driven (.wbyte b i2c) s with fifo.txfifo := bs } := popTx_cons h
  rw [writeData, nextTxByte, h]
  exact (phy_answered ha rfl).trans (congrArg (fun t => afterByte n done (countCur t)) hpop)

/-- Only a legacy target can NACK a byte. -/
theorem writeData_nack (h : s.fifo.txfifo = b :: bs) (hi2c : i2c = true) (ha : Answered .nack s) :
    writeData i2c n done s = raiseError .dnack { driven (.wbyte b i2c) s with seq.nackb := true } := by
  rw [writeData, nextTxByte, h]
  exact phy_answered ha hi2c

theorem writeData_err (h : s.fifo.txfifo = b :: bs) (hj : j ∈ [ErrCode.ce0, .ce1, .ce3, .stall])
    (ha : Answered (.err j) s) : writeData i2c n done s = raiseError j (driven (.wbyte b i2c) s) := by
  rw [writeData, nextTxByte, h]
  exact phy_answered ha ((controllerKind_iff j).mpr hj)

end

/-- The words that write their data: whether a NACK is an answer, and whether a DIRECT word follows (R287, R289, R302,
R303). -/
def writingWords (mend arb : Bool) (a : Addr7) (code : Byte) (n : BitVec 16) : List (Instr × Bool × Bool) :=
  [(.cwCcc mend arb code n, false, decide (0x80 ≤ code.toNat)), (.cwPriv mend arb a false n, false, false),
    (.cwI2c mend arb a false n, true, false), (.cwDirect mend arb a false n, false, false)]

theorem exec_writingWords {mend arb : Bool} {a : Addr7} {code : Byte} {n : BitVec 16} {s : State}
    (h : s.seq.phase = .data) : ∀ row ∈ writingWords mend arb a code n,
      exec row.1 s = .next (writeData row.2.1 n (if row.2.2 then directFollows else messageDone) s) := by
  obtain ⟨hccc, hpriv, hi2c, hdirect⟩ := exec_data (mend := mend) (arb := arb) (rnw := false) (a := a) (code := code)
    (n := n) h
  rw [cccSent_eq] at hccc
  have hdone : directDone a false = messageDone := funext fun t => directDone_unchecked fun ⟨hread, _⟩ => nomatch hread
  rw [directData, hdone] at hdirect
  simp only [writingWords, List.forall_mem_cons, List.not_mem_nil, false_imp_iff, implies_true, and_true]
  exact ⟨hccc, hpriv, hi2c, hdirect⟩

/-- Settles O48: the four words write their data in the same way (`exec_writingWords`). -/
theorem wordWritesByte : Obligations.WordWritesByte := by
  intro mend arb a code n s hphase row hrow
  have hexec := exec_writingWords hphase row hrow
  refine ⟨fun hempty => hexec.trans (congrArg _ (writeData_empty hempty)), ?_⟩
  intro b bs hhead r
  refine ⟨?_, fun hi2c ha => hexec.trans (congrArg _ (writeData_nack hhead hi2c ha)),
    fun k hk ha => hexec.trans (congrArg _ (writeData_err hhead hk ha))⟩
  intro ha done t
  rw [hexec, writeData_ok hhead ha, afterByte]
  exact congrArg _ (if_congr Iff.rfl (ite_apply ..) rfl)

/-! ## A byte read (R288, R289, R303) -/

section
variable {i2c more : Bool} {n : BitVec 16} {done : State → State} {b : Byte} {s : State} {j : ErrCode}

/-- A byte of CUR has been stored and counted. -/
def received (b : Byte) (s : State) : State :=
  { s with
    fifo.rxfifo := s.fifo.rxfifo ++ [b]
    work.lastRx := b
    work.rxHold := none
    cnt.datacnt := s.cnt.datacnt + 1
    seq.curdone := s.seq.curdone + 1 }

/-- The target has ended the read of `n` bytes early. -/
def endedEarly (n : BitVec 16) (s : State) : State :=
  { s with seq.early := true, cnt.rxrem := s.cnt.rxrem - (n - s.seq.curdone).setWidth 32 }

theorem storeRxByte_full {k : State → State} (h : s.env.params.rxfifoDepth ≤ s.fifo.rxfifo.length) :
    storeRxByte b more k s =
      if s.fifo.rxfifo.length < s.cnt.rxrem.toNat then { s with work.rxHold := some (b, more) } else raiseError .dovr s :=
  if_pos (decide_eq_true h)

/-- A byte that RXFIFO has room for is stored and counted; it ends the read, or the read goes on. -/
theorem storeRxByte_readStored (h : ¬s.env.params.rxfifoDepth ≤ s.fifo.rxfifo.length) :
    storeRxByte b more (readStored i2c n more done) s =
      if n.toNat ≤ (s.seq.curdone + 1).toNat then done (received b s)
      else if i2c = true ∨ more = true then received b s
      else done (endedEarly n (received b s)) := by
  have hroom : ¬rxfifoFull s = true := by simpa [rxfifoFull] using h
  rw [storeRxByte, if_neg hroom, readStored]
  simp only [Bool.or_eq_true]
  rfl

/-- A byte that waited for room is tried again, without a request. -/
theorem readData_held (h : s.work.rxHold = some (b, more)) :
    readData i2c n done s = storeRxByte b more (readStored i2c n more done) s := by rw [readData, h]

theorem readData_byte (h : s.work.rxHold = none) (ha : Answered (.byte b more) s) : readData i2c n done s =
    storeRxByte b more (readStored i2c n more done)
      (driven (.rbyte i2c (decide (n.toNat ≤ s.seq.curdone.toNat + 1))) s) := by
  rw [readData, h]
  exact phy_answered ha rfl

theorem readData_err (h : s.work.rxHold = none) (hj : j ∈ [ErrCode.ce0, .ce1, .ce3, .stall])
    (ha : Answered (.err j) s) : readData i2c n done s =
      raiseError j (driven (.rbyte i2c (decide (n.toNat ≤ s.seq.curdone.toNat + 1))) s) := by
  rw [readData, h]
  exact phy_answered ha ((controllerKind_iff j).mpr hj)

end

/-! ### The end of a read -/

/-- A parity is the parity of a count. -/
theorem foldl_xor_eq (l : List Bool) (acc : Bool) : l.foldl xor acc = (acc ^^ decide (l.countP id % 2 = 1)) := by
  induction l generalizing acc with
  | nil => simp
  | cons x l ih =>
    rw [List.foldl_cons, ih, List.countP_cons]
    rcases Nat.mod_two_eq_zero_or_one (l.countP id) with h | h <;> cases x <;> simp [h, Nat.add_mod]

theorem oddParity_iff (b : Byte) : oddParity b = true ↔ (List.range 8).countP (fun i => b.getLsbD i) % 2 = 1 := by
  rw [oddParity, foldl_xor_eq, List.countP_map, Bool.false_xor, decide_eq_true_eq]
  rfl

/-- A GETACCCR answer is right: the address, and an odd number of ones (R486, R530). -/
theorem acccrOk_iff (a : Addr7) (b : Byte) : acccrOk a b = true ↔
    bitField b 1 7 = a ∧ (List.range 8).countP (fun i => b.getLsbD i) % 2 = 1 := by
  rw [acccrOk, Bool.and_eq_true, beq_iff_eq, oddParity_iff]

/-- The words that read their data: whether the target is a legacy one, and whether the read is a GETACCCR (R289, R302,
R303). -/
def readingWords (mend arb : Bool) (a : Addr7) (n : BitVec 16) (s : State) : List (Instr × Bool × Bool) :=
  [(.cwPriv mend arb a true n, false, false), (.cwI2c mend arb a true n, true, false),
    (.cwDirect mend arb a true n, false, decide (s.seq.ccclast = 0x91))]

/-- The end of a read; that of a GETACCCR with its check (R530). -/
def readEnd (check : Bool) (a : Addr7) (s : State) : State :=
  if check then
    if acccrOk a s.work.lastRx then { messageDone s with seq.handover := true } else raiseError .derr s
  else messageDone s

/-- A reading word ends as `readEnd` says, once a byte has been read where there is a check. -/
theorem exec_readingWords {mend arb : Bool} {a : Addr7} {n : BitVec 16} {s : State} (h : s.seq.phase = .data) :
    ∀ row ∈ readingWords mend arb a n s, ∃ done, exec row.1 s = .next (readData row.2.1 n done s) ∧
      ∀ t : State, t.seq.ccclast = s.seq.ccclast → (row.2.2 = true → t.seq.curdone ≠ 0) → done t = readEnd row.2.2 a t := by
  obtain ⟨-, hpriv, hi2c, hdirect⟩ := exec_data (mend := mend) (arb := arb) (rnw := true) (a := a) (code := 0) (n := n) h
  simp only [readingWords, List.forall_mem_cons, List.not_mem_nil, false_imp_iff, implies_true, and_true]
  refine ⟨⟨messageDone, hpriv, fun _ _ _ => rfl⟩, ⟨messageDone, hi2c, fun _ _ _ => rfl⟩, directDone a true, hdirect,
    fun t hlast hdone => ?_⟩
  by_cases hcheck : s.seq.ccclast = 0x91
  · rw [directDone_checked (hlast.trans hcheck) (hdone (decide_eq_true hcheck)), readEnd, if_pos (decide_eq_true hcheck)]
    rfl
  · rw [directDone_unchecked fun ⟨_, hl⟩ => hcheck (hlast.symm.trans hl), readEnd, decide_eq_false hcheck]
    rfl

/-- A byte for which RXFIFO has room, of a word that reads. -/
theorem storeRxByte_readEnd {i2c check more : Bool} {a : Addr7} {n : BitVec 16} {b : Byte} {done : State → State}
    {s : State} (hroom : ¬s.env.params.rxfifoDepth ≤ s.fifo.rxfifo.length)
    (hdone : ∀ t : State, t.seq.ccclast = s.seq.ccclast → t.seq.curdone = s.seq.curdone + 1 → done t = readEnd check a t) :
    storeRxByte b more (readStored i2c n more done) s =
      if n.toNat ≤ (s.seq.curdone + 1).toNat then readEnd check a (received b s)
      else if i2c = true ∨ more = true then received b s
      else readEnd check a (endedEarly n (received b s)) := by
  rw [storeRxByte_readStored hroom, hdone (received b s) rfl rfl, hdone (endedEarly n (received b s)) rfl rfl]

/-- Settles O49: a byte with room, read by each of the three words that read. -/
theorem wordReadsByte : Obligations.WordReadsByte := by
  intro mend arb a n b more s hphase hhold hlen ha done last stored closed short ends odd checked
  have hroom : ¬s.env.params.rxfifoDepth ≤ s.fifo.rxfifo.length := Nat.not_le.mpr hlen
  have hread : ∀ row ∈ readingWords mend arb a n s, (row.2.2 = true → done ≠ 0) → exec row.1 s =
      .next (if n.toNat ≤ done.toNat then readEnd row.2.2 a (stored row.2.1)
        else if row.2.1 = true ∨ more = true then stored row.2.1
        else readEnd row.2.2 a (short (stored row.2.1))) := by
    intro row hrow hcheck
    obtain ⟨k, hexec, hk⟩ := exec_readingWords hphase row hrow
    rw [hexec, readData_byte hhold ha]
    exact congrArg _ (storeRxByte_readEnd hroom fun t hlast hdone => hk t hlast fun h => hdone ▸ hcheck h)
  have hends : ∀ {check : Bool} {close : State → State}, (∀ t, t.work.lastRx = b → readEnd check a t = close t) →
      (if n.toNat ≤ done.toNat then readEnd check a (stored false)
        else if false = true ∨ more = true then stored false
        else readEnd check a (short (stored false))) = ends close := fun hclose =>
    if_congr Iff.rfl (hclose _ rfl)
      (if_congr (or_iff_right Bool.false_ne_true) rfl (hclose _ rfl))
  refine ⟨?priv, ?i2c, fun hlast => ?direct, fun hlast hdone => ?checked⟩
  case priv =>
    exact (hread _ (.head _) nofun).trans (congrArg _ (hends fun _ _ => rfl))
  case i2c =>
    exact (hread _ (.tail _ (.head _)) nofun).trans (congrArg _ (if_congr Iff.rfl rfl (if_pos (.inl rfl))))
  case direct =>
    have hcheck : decide (s.seq.ccclast = 0x91) = false := decide_eq_false hlast
    have h := hread _ (.tail _ (.tail _ (.head _)))
    rw [hcheck] at h
    exact (h nofun).trans (congrArg _ (hends fun _ _ => rfl))
  case checked =>
    have hcheck : decide (s.seq.ccclast = 0x91) = true := decide_eq_true hlast
    have h := hread _ (.tail _ (.tail _ (.head _)))
    rw [hcheck] at h
    refine (h fun _ => hdone).trans (congrArg _ (hends fun t ht => ?_))
    rw [readEnd, if_pos rfl, ht]
    exact if_congr (acccrOk_iff a b) rfl rfl

/-- Settles O50: a read with RXFIFO full, and a held byte, of each of the three words that read. -/
theorem wordReadHeld : Obligations.WordReadHeld := by
  intro mend arb a n b more s hphase row hrow full waits r done stored odd shut closed
  obtain ⟨k, hexec, hk⟩ := exec_readingWords hphase row hrow
  refine ⟨fun hhold => ⟨fun hfull ha => ?request, fun j hj ha => ?error⟩, fun hheld => ⟨fun hfull => ?again, ?room⟩⟩
  case request =>
    rw [hexec, readData_byte hhold ha]
    exact congrArg _ (storeRxByte_full hfull)
  case error => exact hexec.trans (congrArg _ (readData_err hhold hj ha))
  case again =>
    rw [hexec, readData_held hheld, storeRxByte_full hfull, ← hheld]
  case room =>
    intro hroom hcheck
    have hclosed : ∀ t : State, t.work.lastRx = b → readEnd row.2.2 a t = closed t := fun t ht => by
      rw [readEnd, ht]
      exact if_congr Iff.rfl (if_congr (acccrOk_iff a b) rfl rfl) rfl
    rw [hexec, readData_held hheld, storeRxByte_readEnd hroom fun t hlast hdone => hk t hlast fun h => hdone ▸ hcheck h,
      hclosed _ rfl, hclosed _ rfl]
    rfl

end Sys2Proof.Machine
end

section
/-! SUPPORT. The end of a control word (spec/41_controller.md R290, spec/46_events.md R530): its status word, and what follows
it, up to the completion of the transfer. -/

namespace Sys2Proof.Machine

/-! ## The status word (spec/30_encoding.md R190) -/

section
variable {mend arb rnw : Bool} {a : Addr7} {code : Byte} {n : BitVec 16} {s : State}

theorem curRnw_cccWord (h : s.seq.cur = cccWord mend arb code n) : curRnw s = false := by
  obtain ⟨-, hmtype, -⟩ := cccWord_fields mend arb code n
  rw [curRnw, h, hmtype]
  exact Bool.and_false _

theorem curRnw_addrWord {m : BitVec 4} (hm : m ≠ 1#4) (h : s.seq.cur = addrWord m mend arb a rnw n) : curRnw s = rnw := by
  obtain ⟨-, hmtype, -, -, -, hrnw, -⟩ := addrWord_fields m mend arb a rnw n
  rw [curRnw, h, hmtype, hrnw, bne_iff_ne.mpr hm, Bool.and_true]

/-- Each control word with its encoding and the RNW of its status word: 0 for a CCC word. -/
def endingWords (mend arb rnw : Bool) (a : Addr7) (code : Byte) (n : BitVec 16) : List (Instr × Word × Bool) :=
  [(.cwCcc mend arb code n, cccWord mend arb code n, false), (.cwPriv mend arb a rnw n, addrWord 2 mend arb a rnw n, rnw),
    (.cwI2c mend arb a rnw n, addrWord 3 mend arb a rnw n, rnw),
    (.cwDirect mend arb a rnw n, addrWord 4 mend arb a rnw n, rnw)]

theorem curRnw_of_endingWords :
    ∀ row ∈ endingWords mend arb rnw a code n, s.seq.cur = row.2.1 → curRnw s = row.2.2 := by
  simp only [endingWords, List.forall_mem_cons, List.not_mem_nil, false_imp_iff, implies_true, and_true]
  exact ⟨curRnw_cccWord, curRnw_addrWord (by decide), curRnw_addrWord (by decide), curRnw_addrWord (by decide)⟩

theorem exec_endingWords (h : s.seq.phase = .fin) :
    ∀ row ∈ endingWords mend arb rnw a code n, exec row.1 s = .next (endWord mend s) := by
  intro row hrow
  have hword : row.1 ∈ (endingWords mend arb rnw a code n).map Prod.fst := List.mem_map_of_mem hrow
  exact exec_fin h row.1 hword

end

/-! ## Completion and what comes before it -/

section
variable {mend : Bool} {s : State}

theorem listenOf_target (noten : Word) : listenOf .target noten = decide (noten &&& 0x07FF0000 ≠ 0) := by
  simp [listenOf, tgtIdMask, bne, beq_eq_decide]

/-- The transfer has completed, before a role change (R290). -/
def transferEnded (s : State) : State :=
  endedWith 0 0 s.cnt.msgcnt
    { s with fifo.txfifo := [], fifo.cfifo := [], cnt.txrem := 0, seq.phase := .idle, work.micro := .start }

theorem completeTransfer_eq (s : State) : completeTransfer s =
    if s.seq.handover then
      { transferEnded s with
        seq.handover := false
        ctl.mode := .target
        tgt.phase := .idle
        ctl.listen := decide (s.rep.noten &&& 0x07FF0000 ≠ 0) }
    else transferEnded s := by
  rw [← listenOf_target]
  rfl

/-- No word is left and no frame is open. -/
def NoneLeft (s : State) : Prop := s.cnt.ctrlrem = 0 ∧ s.fifo.cfifo = [] ∧ s.seq.frame = false

theorem afterWord_of_left (h : ¬NoneLeft s) : afterWord s = enter .fetch .start s := if_neg h

theorem afterWord_of_noneLeft (h : NoneLeft s) :
    afterWord s = if s.cnt.rxrem = 0 then completeTransfer s else goto .drain s := if_pos h

theorem endWord_drain (h : s.work.micro = .drain) :
    endWord mend s = if s.cnt.rxrem = 0 then completeTransfer s else s := if_pos h

theorem sfifoFull_iff : (s.cfg.sfen && sfifoFull s) = true ↔
    s.cfg.sfen = true ∧ s.env.params.sfifoDepth ≤ s.fifo.sfifo.length := by
  rw [Bool.and_eq_true, sfifoFull, decide_eq_true_eq]

theorem endWord_full (hmicro : s.work.micro = .start)
    (h : s.cfg.sfen = true ∧ s.env.params.sfifoDepth ≤ s.fifo.sfifo.length) : endWord mend s = raiseError .covr s := by
  rw [endWord, hmicro, if_neg nofun, if_pos (sfifoFull_iff.mpr h)]

/-- The frame ends with STOP where the word says so. -/
def stoppedBy (mend : Bool) (s : State) : State := if mend then { driven .stop s with seq.frame := false } else s

theorem stoppedBy_cnt (mend : Bool) (s : State) : (stoppedBy mend s).cnt = s.cnt := by cases mend <;> rfl

theorem stoppedBy_fifo (mend : Bool) (s : State) : (stoppedBy mend s).fifo = s.fifo := by cases mend <;> rfl

theorem stoppedBy_rep (mend : Bool) (s : State) : (stoppedBy mend s).rep = s.rep := by cases mend <;> rfl

theorem stoppedBy_seq_handover (mend : Bool) (s : State) : (stoppedBy mend s).seq.handover = s.seq.handover := by
  cases mend <;> rfl

theorem descriptorDone_stoppedBy (mend : Bool) (s : State) : descriptorDone (stoppedBy mend s) =
    { stoppedBy mend s with
      fifo.sfifo := if s.cfg.sfen then s.fifo.sfifo ++ [statusOfCur s] else s.fifo.sfifo
      cnt.msgcnt := s.cnt.msgcnt + 1 } := by
  cases mend <;> rfl

theorem endWord_done (hmicro : s.work.micro = .start) (ha : Answered .ok s)
    (h : ¬(s.cfg.sfen = true ∧ s.env.params.sfifoDepth ≤ s.fifo.sfifo.length)) :
    endWord mend s = afterWord (descriptorDone (stoppedBy mend s)) := by
  rw [endWord, hmicro, if_neg nofun, if_neg (mt sfifoFull_iff.mp h)]
  cases mend with
  | false => rfl
  | true => exact (if_pos rfl).trans (phy_answered ha rfl)

end

/-- Settles O51: the four words end in the same way (`exec_endingWords`); S_END and what follows it are cut at SFIFO, the words
left and the rx bytes to drain. -/
theorem wordEnds : Obligations.WordEnds := by
  intro mend arb rnw a code n s hphase _ completed row hrow hcur
  have hexec := exec_endingWords hphase row hrow
  have hcompleted : ∀ t : State, t.seq.handover = s.seq.handover → t.rep.noten = s.rep.noten →
      completeTransfer t = completed t := fun t hhandover hnoten => by
    rw [completeTransfer_eq, hhandover, hnoten]
    rfl
  refine ⟨?_, fun hmicro => ?drain⟩
  case drain =>
    rw [hexec, endWord_drain hmicro, hcompleted s rfl rfl]
  intro hmicro ha full status stopped t none_left
  have ht : descriptorDone (stoppedBy mend s) = t := by
    rw [descriptorDone_stoppedBy, statusOfCur, curRnw_of_endingWords row hrow hcur]
    rfl
  have hafter : ¬full → exec row.1 s = .next (afterWord t) := fun h => by rw [hexec, endWord_done hmicro ha h, ht]
  have hleft : NoneLeft t ↔ none_left := by
    have hcnt : t.cnt.ctrlrem = s.cnt.ctrlrem := (congrArg Counters.ctrlrem (stoppedBy_cnt mend s) :)
    have hfifo : t.fifo.cfifo = s.fifo.cfifo := (congrArg Fifos.cfifo (stoppedBy_fifo mend s) :)
    rw [NoneLeft, hcnt, hfifo]
  have hrem : t.cnt.rxrem = s.cnt.rxrem := (congrArg Counters.rxrem (stoppedBy_cnt mend s) :)
  refine ⟨fun hfull => ?full, fun hroom hnot => ?next, fun hroom hnone hrx => ?hold, fun hroom hnone hrx => ?complete⟩
  case full => rw [hexec, endWord_full hmicro hfull]
  case next =>
    rw [hafter hroom, afterWord_of_left (mt hleft.mp hnot)]
    rfl
  case hold =>
    rw [hafter hroom, afterWord_of_noneLeft (hleft.mpr hnone), hrem, if_neg hrx]
    rfl
  case complete =>
    rw [hafter hroom, afterWord_of_noneLeft (hleft.mpr hnone), hrem, if_pos hrx,
      hcompleted t (stoppedBy_seq_handover mend s) (congrArg Report.noten (stoppedBy_rep mend s))]

end Sys2Proof.Machine
end

section
/-! SUPPORT. The FIFO ports of the host (spec/42_fifo.md R341–R344): what a write of CFIFO or TXFIFO and a read of SFIFO or
RXFIFO do. -/

namespace Sys2Proof.Machine

/-! ## What is in flight -/

theorem pending_iff {op : Byte} {s : State} : pending op s = true ↔ s.ctl.cmdp = true ∧ s.ctl.pendop = op := by
  simp [pending]

section
variable (v : Word) (s : State)

/-- A command that sends data bytes is in flight (spec/42_fifo.md R343). -/
theorem sending_iff : (pending opStart s || pending opTgtTx s || pending opIbiReq s) = true ↔
    s.ctl.cmdp = true ∧ (s.ctl.pendop = 0x20 ∨ s.ctl.pendop = 0x30 ∨ s.ctl.pendop = 0x34) := by
  simp only [Bool.or_eq_true, pending_iff, or_assoc, ← and_or_left]
  rfl

/-! ## Writes -/

theorem pushCfifo_eq : pushCfifo v s =
    if s.ctl.mode = .controller ∧ (s.ctl.life = .tx ∨ s.ctl.life = .rx ∨ s.ctl.life = .txrx) ∧ s.ctl.strat ≠ .dma then
      if s.fifo.cfifo.length < s.env.params.cfifoDepth then { s with fifo.cfifo := s.fifo.cfifo ++ [v] }
      else latchFlag .covr s
    else s := by
  simp only [pushCfifo, cfifoFull, decide_eq_true_eq, ← not_lt, ite_not]

theorem pushTxfifo_eq : pushTxfifo v s =
    if s.ctl.cmdp = true ∧ (s.ctl.pendop = 0x20 ∨ s.ctl.pendop = 0x30 ∨ s.ctl.pendop = 0x34) ∧ s.ctl.strat ≠ .dma then
      if s.fifo.txfifo.length < s.env.params.txfifoDepth then { s with fifo.txfifo := s.fifo.txfifo ++ [bitField v 0 8] }
      else latchFlag .dovr s
    else s := by
  simp only [pushTxfifo, sending_iff, and_assoc, txfifoFull, decide_eq_true_eq, ← not_lt, ite_not]

/-! ## Reads -/

/-- A read of SFIFO returns what it pops. -/
theorem hostTurn_read_sfifo :
    hostTurn (.read 0x4C 4) s = .next { (popSfifo s).2 with env.hostRead := (popSfifo s).1 } := rfl

/-- A read of RXFIFO returns what it pops. -/
theorem hostTurn_read_rxfifo :
    hostTurn (.read 0x54 4) s = .next { (popRxfifo s).2 with env.hostRead := (popRxfifo s).1 } := rfl

variable {s}

theorem popSfifo_of_cons {w : Word} {ws : List Word} (h : s.fifo.sfifo = w :: ws) :
    popSfifo s = (w, { s with fifo.sfifo := ws }) := by
  simp only [popSfifo, h]

theorem popSfifo_of_nil (h : s.fifo.sfifo = []) : popSfifo s = (0, latchFlag .covr s) := by
  simp only [popSfifo, h]

theorem popRxfifo_of_cons {b : Byte} {bs : List Byte} (h : s.fifo.rxfifo = b :: bs) :
    popRxfifo s =
      (b.setWidth 32, { s with fifo.rxfifo := bs, cnt.rxrem := if s.cnt.rxrem = 0 then 0 else s.cnt.rxrem - 1 }) := by
  simp only [popRxfifo, h, place, BitVec.shiftLeft_zero]

theorem popRxfifo_of_nil (h : s.fifo.rxfifo = []) : popRxfifo s = (0, latchFlag .dovr s) := by
  simp only [popRxfifo, h]

end

/-- Settles O24: a write of CFIFO or TXFIFO is a push, a read of SFIFO or RXFIFO a pop, of a FIFO that may be full or empty. -/
theorem fifoPorts : Obligations.FifoPorts := by
  intro v s
  refine ⟨?cfifo, ?txfifo, fun w ws h => ?sfifo, fun h => ?sfifoEmpty, fun b bs h => ?rxfifo, fun h => ?rxfifoEmpty⟩
  case cfifo =>
    rw [hostTurn_write v s (by decide) (by decide), ← pushCfifo_eq]
    rfl
  case txfifo =>
    rw [hostTurn_write v s (by decide) (by decide), ← pushTxfifo_eq]
    rfl
  case sfifo => rw [hostTurn_read_sfifo, popSfifo_of_cons h]
  case sfifoEmpty => rw [hostTurn_read_sfifo, popSfifo_of_nil h]
  case rxfifo => rw [hostTurn_read_rxfifo, popRxfifo_of_cons h]
  case rxfifoEmpty => rw [hostTurn_read_rxfifo, popRxfifo_of_nil h]

end Sys2Proof.Machine
end

section
/-! SUPPORT. The MOVER (spec/42_fifo.md R345, R352): when each of its actions is enabled, when its access faults, and what it
moves. -/

namespace Sys2Proof.Machine

/-! ## One access of the MOVER -/

/-- A word is read whole: the bytes of an access that does not fault (spec/20_memory.md R132). -/
theorem memRead_four_of_ne_none {s : State} {a : Nat} (h : memRead s a 4 ≠ none) :
    ∃ bs, memRead s a 4 = some bs ∧ wordOf bs = wordAt s s.mem a := by
  obtain ⟨bs, hbs⟩ := Option.ne_none_iff_exists'.mp h
  obtain ⟨-, rfl⟩ := memRead_eq_some_iff.mp hbs
  exact ⟨_, hbs, rfl⟩

theorem memRead_one (s : State) (a : Nat) : memRead s a 1 =
    if readable s (byteAt s a 0) = false then none else some [Memory.read s.mem (byteAt s a 0)] := by
  have hall : ((List.range 1).all fun k => readable s (byteAt s a k)) = readable s (byteAt s a 0) := Bool.and_true _
  rw [memRead, hall]
  cases readable s (byteAt s a 0) <;> rfl

theorem memWrite_one (s : State) (a : Nat) (b : Byte) : memWrite s a [b] =
    if writable s (byteAt s a 0) = false then none else some { s with mem := Memory.write s.mem (byteAt s a 0) b } := by
  have hall : ((List.range [b].length).all fun k => writable s (byteAt s a k)) = writable s (byteAt s a 0) :=
    Bool.and_true _
  rw [memWrite, hall]
  cases writable s (byteAt s a 0) <;> rfl

/-! ## Guards -/

section
variable (dmaErr : Bool) (s : State)

theorem dmaFault_iff : dmaFault dmaErr s = true ↔ dmaErr = true ∧ s.ctl.strat = .dma := by
  simp [dmaFault]

theorem moverStart_iff : moverStart s = true ↔ s.ctl.cmdp = true ∧ s.ctl.pendop = 0x20 ∧
    (s.ctl.life = .tx ∨ s.ctl.life = .rx ∨ s.ctl.life = .txrx ∨ s.ctl.life = .abort) := by
  simp only [moverStart, Bool.and_eq_true, Bool.or_eq_true, beq_iff_eq, pending_iff, or_assoc, and_assoc]
  rfl

theorem moverEnabled_iff : moverEnabled s = true ↔ moverStart s = true ∨
    (s.ctl.cmdp = true ∧ (s.ctl.pendop = 0x30 ∨ s.ctl.pendop = 0x31 ∨ s.ctl.pendop = 0x34)) := by
  simp only [moverEnabled, Bool.or_eq_true, pending_iff, or_assoc, ← and_or_left]
  rfl

/-! ## Actions -/

theorem moverM1_eq : moverM1 dmaErr s =
    if moverStart s = true ∧ s.cnt.ctrlrem ≠ 0 ∧ s.fifo.cfifo.length < s.env.params.cfifoDepth then
      if dmaFault dmaErr s = true ∨ memRead s s.cnt.ctrlptr 4 = none then raiseError .dma s
      else
        { s with
          fifo.cfifo := s.fifo.cfifo ++ [wordAt s s.mem s.cnt.ctrlptr]
          cnt.ctrlptr := byteAt s s.cnt.ctrlptr 4
          cnt.ctrlrem := s.cnt.ctrlrem - 1 }
    else s := by
  unfold moverM1
  refine if_congr (by simp [not_cfifoFull, and_assoc]) ?_ rfl
  by_cases hfault : dmaFault dmaErr s = true ∨ memRead s s.cnt.ctrlptr 4 = none
  · rw [if_pos hfault, ite_eq_left_iff.mpr (or_iff_not_imp_left.mp hfault)]
  · obtain ⟨hdma, hread⟩ := not_or.mp hfault
    obtain ⟨bs, hbs, hword⟩ := memRead_four_of_ne_none hread
    rw [if_neg hfault, if_neg hdma, hbs, ← hword]

theorem moverM2_eq : moverM2 dmaErr s =
    if moverEnabled s = true ∧ s.cnt.txrem ≠ 0 ∧ txReq s = true then
      if dmaFault dmaErr s = true ∨ readable s (byteAt s s.cnt.txptr 0) = false then raiseError .dma s
      else
        { s with
          fifo.txfifo := s.fifo.txfifo ++ [Memory.read s.mem (byteAt s s.cnt.txptr 0)]
          cnt.txptr := byteAt s s.cnt.txptr 1
          cnt.txrem := s.cnt.txrem - 1 }
    else s := by
  unfold moverM2
  refine if_congr (by simp [and_assoc]) ?_ rfl
  rw [memRead_one, ← ite_or]
  by_cases hfault : dmaFault dmaErr s = true ∨ readable s (byteAt s s.cnt.txptr 0) = false
  · rw [if_pos hfault, if_pos hfault]
  · rw [if_neg hfault, if_neg hfault]
    rfl

variable {s}

theorem moverM3_of_cons {b : Byte} {bs : List Byte} (h : s.fifo.rxfifo = b :: bs) : moverM3 dmaErr s =
    if moverEnabled s = true ∧ s.cnt.rxrem ≠ 0 ∧ rxReq s = true then
      if dmaFault dmaErr s = true ∨ writable s (byteAt s s.cnt.rxptr 0) = false then raiseError .dma s
      else
        { s with
          mem := Memory.write s.mem (byteAt s s.cnt.rxptr 0) b
          fifo.rxfifo := bs
          cnt.rxptr := byteAt s s.cnt.rxptr 1
          cnt.rxrem := s.cnt.rxrem - 1 }
    else s := by
  unfold moverM3
  refine if_congr (by simp [and_assoc]) ?_ rfl
  simp only [h, memWrite_one, ← ite_or]
  by_cases hfault : dmaFault dmaErr s = true ∨ writable s (byteAt s s.cnt.rxptr 0) = false
  · rw [if_pos hfault, if_pos hfault]
  · rw [if_neg hfault, if_neg hfault]

theorem moverM3_of_nil (h : s.fifo.rxfifo = []) : moverM3 dmaErr s = s := by
  simp only [moverM3, h, ite_self]

end

/-- Settles O25: each action is its guard, then the fault of its access or the byte or word it moves. -/
theorem moverMoves : Obligations.MoverMoves := by
  intro dmaErr s start enabled fails thrTx thrRx free txreq rxreq
  have hstart : moverStart s = true ↔ start := moverStart_iff s
  have henabled : moverEnabled s = true ↔ enabled := (moverEnabled_iff s).trans (or_congr_left hstart)
  have hfails : dmaFault dmaErr s = true ↔ fails := dmaFault_iff dmaErr s
  have htx : txReq s = true ↔ txreq := by
    rw [txReq_eq]
    exact decide_eq_true_iff
  have hrx : rxReq s = true ↔ rxreq := by
    rw [rxReq_eq]
    exact decide_eq_true_iff
  refine ⟨?m1, ?m2, fun b bs hrxfifo => ?m3, moverM3_of_nil dmaErr⟩
  case m1 =>
    exact (moverM1_eq dmaErr s).trans (if_congr (and_congr_left' hstart) (if_congr (or_congr_left hfails) rfl rfl) rfl)
  case m2 =>
    exact (moverM2_eq dmaErr s).trans
      (if_congr (and_congr henabled (and_congr_right' htx)) (if_congr (or_congr_left hfails) rfl rfl) rfl)
  case m3 =>
    exact (moverM3_of_cons dmaErr hrxfifo).trans
      (if_congr (and_congr henabled (and_congr_right' hrx)) (if_congr (or_congr_left hfails) rfl rfl) rfl)

end Sys2Proof.Machine
end

section
/-! SUPPORT. The address allocator (spec/43_daa.md R386) and the payload decoder (R395, R396). -/

namespace Sys2Proof.Machine

/-! ## The allocator -/

section
variable {s : State} {a : Addr7}

/-- The valid dynamic addresses (spec/30_encoding.md R230). -/
theorem validDa_iff (a : Addr7) : validDa a = true ↔
    0x08 ≤ a.toNat ∧ a.toNat ≤ 0x7D ∧ a ∉ ([0x3E, 0x5E, 0x6E, 0x76, 0x7A, 0x7C] : List Addr7) := by
  simp [validDa, ← BitVec.toNat_inj, and_assoc]

/-- An address that `alloc()` may answer, in the words of R386. -/
def Offerable (s : State) (a : Addr7) : Prop :=
  s.daa.next.toNat ≤ a.toNat ∧ a.toNat ≤ 0x7D ∧ validDa a = true ∧
    (∀ i : Fin 4, ¬(s.cfg.bdt[i].v = true ∧ s.cfg.bdt[i].da = a)) ∧ ¬(s.cfg.dav = true ∧ s.cfg.da = a)

theorem bdtFind_isNone_iff :
    (bdtFind s a).isNone = true ↔ ∀ i : Fin 4, ¬(s.cfg.bdt[i].v = true ∧ s.cfg.bdt[i].da = a) := by
  obtain ⟨-, hnone⟩ := bdtFindLowest s a
  rw [Option.isNone_iff_eq_none, hnone]

/-- What the search of `alloc()` tests; the bound 0x7D is that of a valid dynamic address. -/
theorem offerable_iff : (decide (s.daa.next.toNat ≤ a.toNat) && allocatable s a) = true ↔ Offerable s a := by
  have hown : (!(s.cfg.dav && a == s.cfg.da)) = true ↔ ¬(s.cfg.dav = true ∧ s.cfg.da = a) := by
    rw [Bool.not_eq_true', ← Bool.not_eq_true, Bool.and_eq_true, beq_iff_eq, eq_comm (a := a)]
  have hbound : validDa a = true → a.toNat ≤ 0x7D := fun hvalid => by
    obtain ⟨-, hle, -⟩ := (validDa_iff a).mp hvalid
    exact hle
  simp only [allocatable, Bool.and_eq_true, decide_eq_true_eq, bdtFind_isNone_iff, hown, and_assoc]
  exact and_congr_right fun _ => (and_iff_right_of_imp fun ⟨hvalid, _⟩ => hbound hvalid).symm

/-- Every address stands at its own place of the search. -/
theorem ofNat_toNat_addr (b : Addr7) : BitVec.ofNat 7 b.toNat = b := by rw [BitVec.ofNat_toNat, BitVec.setWidth_eq]

/-- `alloc()` tries the addresses in rising order. -/
theorem alloc_eq_find?_range (s : State) : alloc s = ((List.range 0x7E).find? fun i =>
    decide (s.daa.next.toNat ≤ (BitVec.ofNat 7 i).toNat) && allocatable s (BitVec.ofNat 7 i)).map (BitVec.ofNat 7) := by
  rw [alloc, List.find?_map]
  rfl

theorem alloc_smallest (h : alloc s = some a) : Offerable s a ∧ ∀ b, Offerable s b → a.toNat ≤ b.toNat := by
  rw [alloc_eq_find?_range, Option.map_eq_some_iff] at h
  obtain ⟨i, hi, rfl⟩ := h
  obtain ⟨hfree, hrange, hbelow⟩ := List.find?_range_eq_some.mp hi
  refine ⟨offerable_iff.mp hfree, fun b hb => Nat.le_of_not_lt fun hlt => ?_⟩
  have hplace : (BitVec.ofNat 7 i).toNat ≤ i := Nat.mod_le ..
  have hrefused := hbelow b.toNat (Nat.lt_of_lt_of_le hlt hplace)
  rw [ofNat_toNat_addr, offerable_iff.mpr hb] at hrefused
  exact Bool.false_ne_true hrefused

theorem not_offerable_of_alloc_eq_none (h : alloc s = none) (b : Addr7) : ¬Offerable s b := by
  rw [alloc_eq_find?_range, Option.map_eq_none_iff, List.find?_range_eq_none] at h
  intro hb
  obtain ⟨-, hle, -⟩ := id hb
  have hrefused := h b.toNat (Nat.lt_succ_of_le hle)
  rw [ofNat_toNat_addr, offerable_iff.mpr hb] at hrefused
  exact Bool.false_ne_true hrefused

end

/-- Settles O20: the search tests the addresses one by one, from the lowest up, for being `Offerable`. -/
theorem allocSmallest : Obligations.AllocSmallest :=
  ⟨validDa_iff, fun _ => ⟨fun _ => alloc_smallest, not_offerable_of_alloc_eq_none⟩⟩

/-! ## The payload decoder -/

/-- Settles O31: the command's meaning is `decodePayload` and PRESULT. -/
theorem decodePayloadCompletes : Obligations.DecodePayloadCompletes := fun _ _ _ => rfl

section
variable (p : BitVec 64)

theorem toNat_bitField {m : Nat} (w : BitVec m) (lo n : Nat) : (bitField w lo n).toNat = w.toNat / 2 ^ lo % 2 ^ n := by
  rw [bitField, BitVec.extractLsb'_toNat, Nat.shiftRight_eq_div_pow]

/-- A field keeps its value in a wider one. -/
theorem toNat_bitField_setWidth {m n k : Nat} (w : BitVec m) (lo : Nat) (h : n ≤ k) :
    ((bitField w lo n).setWidth k).toNat = w.toNat / 2 ^ lo % 2 ^ n := by
  rw [BitVec.toNat_setWidth_of_le h, toNat_bitField]

/-- The four fields of DEC0 do not overlap. -/
theorem bitField_dec0Of :
    bitField (dec0Of p) 0 8 = bitField p 8 8 ∧ bitField (dec0Of p) 8 8 = bitField p 0 8 ∧
      bitField (dec0Of p) 16 4 = (bitField p 48 1).setWidth 4 ∧
      bitField (dec0Of p) 20 12 = (bitField p 28 4).setWidth 12 := by
  unfold dec0Of bitField place
  refine ⟨?_, ?_, ?_, ?_⟩
  all_goals (ext i hi; interval_cases i <;> simp)

/-- The two fields of DEC1 do not overlap. -/
theorem bitField_dec1Of :
    bitField (dec1Of p) 0 16 = (bitField p 49 15).setWidth 16 ∧ bitField (dec1Of p) 16 16 = bitField p 32 16 := by
  unfold dec1Of bitField place
  refine ⟨?_, ?_⟩
  all_goals (ext i hi; interval_cases i <;> simp)

/-- BCR, DCR, IDTSEL and MIPIID as digits of the payload. -/
theorem toNat_fields_dec0Of :
    (bitField (dec0Of p) 0 8).toNat = p.toNat / 2 ^ 8 % 2 ^ 8 ∧
      (bitField (dec0Of p) 8 8).toNat = p.toNat / 2 ^ 0 % 2 ^ 8 ∧
      (bitField (dec0Of p) 16 4).toNat = p.toNat / 2 ^ 48 % 2 ^ 1 ∧
      (bitField (dec0Of p) 20 12).toNat = p.toNat / 2 ^ 28 % 2 ^ 4 := by
  obtain ⟨hbcr, hdcr, hidtsel, hmipiid⟩ := bitField_dec0Of p
  rw [hbcr, hdcr, hidtsel, hmipiid]
  exact ⟨toNat_bitField .., toNat_bitField .., toNat_bitField_setWidth _ _ (by decide),
    toNat_bitField_setWidth _ _ (by decide)⟩

/-- MIPIMID and PARTID as digits of the payload. -/
theorem toNat_fields_dec1Of :
    (bitField (dec1Of p) 0 16).toNat = p.toNat / 2 ^ 49 % 2 ^ 15 ∧
      (bitField (dec1Of p) 16 16).toNat = p.toNat / 2 ^ 32 % 2 ^ 16 := by
  obtain ⟨hmipimid, hpartid⟩ := bitField_dec1Of p
  rw [hmipimid, hpartid]
  exact ⟨toNat_bitField_setWidth _ _ (by decide), toNat_bitField ..⟩

/-- PIDEXT as a digit of the payload. -/
theorem toNat_dec2Of : (dec2Of p).toNat = p.toNat / 2 ^ 16 % 2 ^ 12 := by
  rw [dec2Of, place, BitVec.shiftLeft_zero]
  exact toNat_bitField_setWidth _ _ (by decide)

end

/-- Settles O32: the fields are the digits of the payload at the bits 49, 48, 32, 28, 16, 8 and 0, each as wide as the gap to
the next. -/
theorem payloadBijection : Obligations.PayloadBijection := by
  intro p s d mipimid idtsel partid mipiid pidext bcr dcr
  obtain ⟨hbcr, hdcr, hidtsel, hmipiid⟩ : bcr = _ ∧ dcr = _ ∧ idtsel = _ ∧ mipiid = _ := toNat_fields_dec0Of p
  obtain ⟨hmipimid, hpartid⟩ : mipimid = _ ∧ partid = _ := toNat_fields_dec1Of p
  have hpidext : pidext = _ := toNat_dec2Of p
  have hp : p.toNat < 2 ^ 64 := p.isLt
  clear_value mipimid idtsel partid mipiid pidext bcr dcr
  omega

end Sys2Proof.Machine
end

section
/-! SUPPORT. Dynamic address assignment (spec/43_daa.md R381–R392): the acceptance of DAA, and each request of a round with
its answers. -/

namespace Sys2Proof.Machine

/-! ## Acceptance (R381) -/

section
variable {st : Strat} {sub : Byte} {s : State}

theorem daaArgsOk_iff : daaArgsOk st sub s = true ↔
    ¬(1 < sub.toNat ∨ (st = .poll ∧ s.arg.arg1 ≠ 0 ∧ s.arg.arg0.toNat % 4 ≠ 0)) := by
  rw [daaArgsOk, Bool.and_eq_true, decide_eq_true_eq, not_or, not_lt, Bool.not_eq_true', ← Bool.not_eq_true]
  simp [aligned4_iff]

theorem daaAccept_eq : daaAccept st sub s =
    { acceptedAs 0x22 st s.arg.arg2 s with
      ctl.life := .daa
      cnt.datacnt := 0
      daa.cnt := 0
      daa.da := 0
      daa.ptr := byteAt s s.arg.arg0.toNat 0
      daa.room := s.arg.arg1
      daa.next := s.cfg.daabase
      daa.phase := if sub = 0 then .rstdaa else .entdaa } := by
  rw [daaAccept, accept_eq]
  rfl

theorem exec_daa (h : gate .controller .idle true [.poll, .irq] st s = none) :
    exec (.daa st sub) s = .next (if daaArgsOk st sub s then daaAccept st sub s else reject .invalidParam s) := by
  simp only [exec, execDaa, h, longCommand]

end

/-! ## The requests of a round -/

section
variable {s : State} {rnw : Bool} {next : Micro} {j : ErrCode}

theorem daaHeader_ack (h : Answered .ack s) :
    daaHeader rnw next s = { driven (.addr 0x7E rnw) s with work.micro := next } := phy_answered h rfl

theorem daaHeader_nack (h : Answered .nack s) :
    daaHeader rnw next s = { driven (.addr 0x7E rnw) s with work.micro := .quit } := phy_answered h rfl

theorem daaHeader_err (hj : j ∈ [ErrCode.ce0, .ce1, .ce3, .stall]) (h : Answered (.err j) s) :
    daaHeader rnw next s = raiseError j (driven (.addr 0x7E rnw) s) := phy_answered h ((controllerKind_iff j).mpr hj)

/-- The round has ended: STOP, DAA_DONE, OK with DAACNT (R392). -/
def roundEnded (s : State) : State :=
  endedWith 4 0 (s.daa.cnt.setWidth 16)
    { driven .stop s with daa.phase := .idle, work.micro := .start, seq.frame := false }

theorem roundStop_ok (h : Answered .ok s) : roundStop s = roundEnded s := phy_answered h rfl

/-- A header that nobody acknowledged is followed by the end of the round, in each of the three phases that send one. -/
theorem daaStep_quit (hp : s.daa.phase = .rstdaa ∨ s.daa.phase = .entdaa ∨ s.daa.phase = .loop)
    (hm : s.work.micro = .quit) (ha : Answered .ok s) : daaStep s = roundEnded s := by
  rw [← roundStop_ok ha]
  rcases hp with hp | hp | hp
  · rw [daaStep, hp, rstdaaStep, hm]
  · rw [daaStep, hp, entdaaStep, hm]
  · rw [daaStep, hp, loopStep, hm]

/-! ### D_RSTDAA and D_ENTDAA (R382, R383) -/

/-- The two broadcasts of a round begin alike. -/
theorem daaStep_broadcast_start (hp : s.daa.phase = .rstdaa ∨ s.daa.phase = .entdaa) (hm : s.work.micro = .start) :
    daaStep s = oneShotStart .hdr s := by
  rcases hp with hp | hp
  · rw [daaStep, hp, rstdaaStep, hm]
  · rw [daaStep, hp, entdaaStep, hm]

theorem daaStep_broadcast_hdr (hp : s.daa.phase = .rstdaa ∨ s.daa.phase = .entdaa) (hm : s.work.micro = .hdr) :
    daaStep s = daaHeader false .code s := by
  rcases hp with hp | hp
  · rw [daaStep, hp, rstdaaStep, hm]
  · rw [daaStep, hp, entdaaStep, hm]

theorem daaStep_rstdaa_code (hp : s.daa.phase = .rstdaa) (hm : s.work.micro = .code) :
    daaStep s = sendByte 0x06 (goto .stop) s := by
  rw [daaStep, hp, rstdaaStep, hm]
  rfl

theorem daaStep_rstdaa_stop (hp : s.daa.phase = .rstdaa) (hm : s.work.micro = .stop) (ha : Answered .ok s) :
    daaStep s = { driven .stop s with daa.phase := .entdaa, work.micro := .start, seq.frame := false } := by
  rw [daaStep, hp, rstdaaStep, hm]
  exact phy_answered ha rfl

theorem daaStep_entdaa_code (hp : s.daa.phase = .entdaa) (hm : s.work.micro = .code) :
    daaStep s = sendByte 0x07 (daaEnter .loop) s := by
  rw [daaStep, hp, entdaaStep, hm]
  rfl

/-! ### D_LOOP (R384) -/

/-- The next device is asked for, where the host has consumed the last payload and the output array has room. -/
theorem daaStep_loop_start (hp : s.daa.phase = .loop) (hm : s.work.micro = .start) (ha : Answered .ok s) :
    daaStep s =
      if s.ctl.strat = .irq ∧ s.rep.isr.getLsbD 3 = true then s
      else if s.ctl.strat = .poll ∧ s.daa.room = 0 then roundEnded s
      else { driven .rstart s with work.micro := .addr } := by
  rw [daaStep, hp, loopStep, hm]
  exact if_congr Iff.rfl rfl (if_congr Iff.rfl (roundStop_ok ha) (phy_answered ha rfl))

theorem daaStep_loop_addr (hp : s.daa.phase = .loop) (hm : s.work.micro = .addr) :
    daaStep s = daaHeader true .data s := by rw [daaStep, hp, loopStep, hm]

theorem daaStep_loop_payload {v : BitVec 64} (hp : s.daa.phase = .loop) (hm : s.work.micro = .data)
    (ha : Answered (.payload v) s) : daaStep s = takePayload v (driven .daaRead s) := by
  rw [daaStep, hp, loopStep, hm]
  exact phy_answered ha rfl

theorem daaStep_loop_err (hp : s.daa.phase = .loop) (hm : s.work.micro = .data)
    (hj : j ∈ [ErrCode.ce0, .ce1, .ce3, .stall]) (ha : Answered (.err j) s) :
    daaStep s = raiseError j (driven .daaRead s) := by
  rw [daaStep, hp, loopStep, hm]
  exact phy_answered ha ((controllerKind_iff j).mpr hj)

/-! ### The report of a payload (R387, R388) -/

/-- All eight bytes of the next slot of the output array can be written. -/
def slotWritable (s : State) : Bool := (List.range 8).all fun k => writable s (byteAt s s.daa.ptr k)

/-- The payload stands in the output array, and the next slot is the one after it. -/
def payloadStored (s : State) : State :=
  { s with
    mem := Memory.store s.env.params.addrW s.mem s.daa.ptr (bytes32 s.daa.pl0 ++ bytes32 s.daa.pl1)
    daa.ptr := byteAt s s.daa.ptr 8
    daa.room := s.daa.room - 1 }

theorem storePayload_eq (s : State) : storePayload s = if slotWritable s then some (payloadStored s) else none := by
  have hslot : ((List.range (bytes32 s.daa.pl0 ++ bytes32 s.daa.pl1).length).all fun k =>
      writable s (byteAt s s.daa.ptr k)) = slotWritable s := rfl
  rw [storePayload, memWrite, hslot]
  cases slotWritable s <;> rfl

/-- What a report does before the round goes on with `k`. -/
theorem reportPayload_eq (k : State → State) (s : State) : reportPayload k s =
    if s.ctl.strat = .poll then
      if slotWritable s then k (flag .daaDev (payloadStored s)) else raiseError .dma s
    else k (flag .daaDev s) := by
  rw [reportPayload, storePayload_eq]
  cases slotWritable s <;> rfl

/-! ### D_ASSIGN (R385) -/

theorem daaStep_assign_none (hp : s.daa.phase = .assign) (hm : s.work.micro = .start) (h : alloc s = none) :
    daaStep s = raiseError .dynaddr s := by
  rw [daaStep, hp, assignStep, hm]
  simp only [h]

theorem daaStep_assign_some {a : Addr7} (hp : s.daa.phase = .assign) (hm : s.work.micro = .start)
    (h : alloc s = some a) : daaStep s = offerAddress a s := by
  rw [daaStep, hp, assignStep, hm]
  simp only [h]

theorem daaStep_assign_ack (hp : s.daa.phase = .assign) (hm : s.work.micro = .data) (ha : Answered .ack s) :
    daaStep s = addressTaken (driven (.daaWrite s.daa.da) s) := by
  rw [daaStep, hp, assignStep, hm]
  exact phy_answered ha rfl

theorem daaStep_assign_nack (hp : s.daa.phase = .assign) (hm : s.work.micro = .data) (ha : Answered .nack s) :
    daaStep s = raiseError .anack (driven (.daaWrite s.daa.da) s) := by
  rw [daaStep, hp, assignStep, hm]
  exact phy_answered ha rfl

theorem daaStep_assign_err (hp : s.daa.phase = .assign) (hm : s.work.micro = .data)
    (hj : j ∈ [ErrCode.ce0, .ce1, .ce3, .stall]) (ha : Answered (.err j) s) :
    daaStep s = raiseError j (driven (.daaWrite s.daa.da) s) := by
  rw [daaStep, hp, assignStep, hm]
  exact phy_answered ha ((controllerKind_iff j).mpr hj)

/-- The payload is reported before the DAWRITE under pre_assign alone. -/
theorem offerAddress_eq (a : Addr7) (s : State) : offerAddress a s =
    if s.env.params.daaTiming = .preAssign then reportPayload (goto .data) { s with daa.da := a }
    else { s with daa.da := a, work.micro := .data } := by
  rw [offerAddress]
  cases s.env.params.daaTiming <;> rfl

/-- The device is counted, and the allocator goes on after its address. -/
def deviceCounted (s : State) : State := { s with daa.cnt := s.daa.cnt + 1, daa.next := s.daa.da + 1 }

theorem addressTaken_eq (s : State) : addressTaken s =
    if s.env.params.daaTiming = .preAssign then daaEnter .loop (deviceCounted s)
    else reportPayload (daaEnter .loop) (deviceCounted s) := by
  rw [addressTaken]
  cases s.env.params.daaTiming <;> rfl

end

/-- Settles O37: the argument checks as a proposition, then one row for each request of a round and its answer; a report is
`reportPayload_eq` under either timing. -/
theorem daaAccepted : Obligations.DaaAccepted := by
  intro st sub s
  refine ⟨fun hready hrecov hst => ?accept, ?steps⟩
  case accept =>
    have hstrat : StratOk [.poll, .irq] st s := by
      rcases hst with rfl | rfl <;> exact stratOk_of_not_dma (by decide) nofun
    rw [exec_daa (hready.gate_passed (fun _ => hrecov) hstrat), daaAccept_eq]
    exact congrArg _ ((if_congr daaArgsOk_iff rfl rfl).trans (ite_not ..))
  case steps =>
    intro head rhead go enter opened ended reported counted assigned waits filled
    have hassigned : addressTaken (driven (.daaWrite s.daa.da) s) = assigned := by
      rw [addressTaken_eq, reportPayload_eq]
      rfl
    refine ⟨?answers, fun v => daaStep_loop_payload,
      fun hp hm => ⟨daaStep_assign_none hp hm, fun a h => ?offer⟩, ?arb, ?errors⟩
    case answers =>
      simp only [List.forall_mem_cons, List.not_mem_nil, false_imp_iff, implies_true, and_true]
      exact ⟨fun hp hm ha => (daaStep_broadcast_start (.inl hp) hm).trans (oneShotStart_ok ha),
        fun hp hm ha => (daaStep_broadcast_hdr (.inl hp) hm).trans (daaHeader_ack ha),
        fun hp hm ha => (daaStep_broadcast_hdr (.inl hp) hm).trans (daaHeader_nack ha),
        fun hp hm ha => (daaStep_rstdaa_code hp hm).trans (sendByte_ok ha),
        daaStep_rstdaa_stop,
        fun hp hm ha => (daaStep_broadcast_start (.inr hp) hm).trans (oneShotStart_ok ha),
        fun hp hm ha => (daaStep_broadcast_hdr (.inr hp) hm).trans (daaHeader_ack ha),
        fun hp hm ha => (daaStep_broadcast_hdr (.inr hp) hm).trans (daaHeader_nack ha),
        fun hp hm ha => (daaStep_entdaa_code hp hm).trans (sendByte_ok ha),
        daaStep_loop_start,
        fun hp hm ha => (daaStep_loop_addr hp hm).trans (daaHeader_ack ha),
        fun hp hm ha => (daaStep_loop_addr hp hm).trans (daaHeader_nack ha),
        fun hp hm ha => (daaStep_assign_ack hp hm ha).trans hassigned,
        daaStep_assign_nack,
        fun hp hm ha => daaStep_quit (.inl hp) hm ha,
        fun hp hm ha => daaStep_quit (.inr (.inl hp)) hm ha,
        fun hp hm ha => daaStep_quit (.inr (.inr hp)) hm ha⟩
    case offer =>
      rw [daaStep_assign_some hp hm h, offerAddress_eq, reportPayload_eq, ← hp]
      rfl
    case arb => exact fun b w hp hm ha => (daaStep_broadcast_start hp hm).trans (oneShotStart_arb ha)
    case errors =>
      intro k hk ha
      simp only [List.forall_mem_cons, List.not_mem_nil, false_imp_iff, implies_true, and_true]
      exact ⟨fun hp hm => (daaStep_broadcast_hdr (.inl hp) hm).trans (daaHeader_err hk ha),
        fun hp hm => (daaStep_rstdaa_code hp hm).trans (sendByte_err hk ha),
        fun hp hm => (daaStep_broadcast_hdr (.inr hp) hm).trans (daaHeader_err hk ha),
        fun hp hm => (daaStep_entdaa_code hp hm).trans (sendByte_err hk ha),
        fun hp hm => (daaStep_loop_addr hp hm).trans (daaHeader_err hk ha),
        fun hp hm => daaStep_loop_err hp hm hk ha,
        fun hp hm => daaStep_assign_err hp hm hk ha⟩

end Sys2Proof.Machine
end

section
/-! SUPPORT. The commands of target role (spec/44_target.md R420, R422, R425, R430, R436): their argument checks and their
acceptance. -/

namespace Sys2Proof.Machine

section
variable {st : Strat} {sub : Byte} {g : Option Code} {bad : Prop} [Decidable bad] {ok : Bool} {act : State → State}
  {s t : State}

/-- A class-L command whose gate has passed: what its own argument checks decide (spec/41_controller.md R281). -/
theorem longCommand_of_passed (hg : g = none) (hok : ok = true ↔ ¬bad) (hact : act s = t) :
    longCommand g ok act s = if bad then rejectedWith 3 s else t := by
  rw [hg, ← hact]
  exact (if_congr hok rfl rfl).trans (ite_not ..)

/-! ## TGT_TX and TGT_RX (R420, R422) -/

theorem tgtLenOk_iff : tgtLenOk s = true ↔ ¬(s.arg.arg1 = 0 ∨ 0xFFFF < s.arg.arg1.toNat) := by
  simp [tgtLenOk]

theorem tgtTxAccept_eq (st : Strat) (s : State) : tgtTxAccept st s =
    { acceptedAs 0x30 st s.arg.arg2 s with
      ctl.life := .tx
      tgt.tgtlen := s.arg.arg1
      tgt.tgtend := false
      cnt.txptr := byteAt s s.arg.arg0.toNat 0
      cnt.txrem := s.arg.arg1
      cnt.datacnt := 0
      fifo := Fifos.reset
      work.rxBase := 0
      work.rxCap := 0 } := by
  rw [tgtTxAccept, accept_eq]
  rfl

theorem tgtRxAccept_eq (st : Strat) (s : State) : tgtRxAccept st s =
    { acceptedAs 0x31 st s.arg.arg2 s with
      ctl.life := .rx
      tgt.tgtlen := s.arg.arg1
      tgt.tgtend := false
      cnt.rxptr := byteAt s s.arg.arg0.toNat 0
      cnt.rxrem := s.arg.arg1
      cnt.datacnt := 0
      fifo := Fifos.reset
      work.rxBase := byteAt s s.arg.arg0.toNat 0
      work.rxCap := s.arg.arg1 } := by
  rw [tgtRxAccept, accept_eq]
  rfl

/-! ## HJ_REQ, CR_REQ and IBI_REQ (R425, R430, R436) -/

theorem hjAccept_eq (st : Strat) (s : State) :
    hjAccept st s = { acceptedAs 0x32 st s.arg.arg2 s with ctl.life := .tgtreq, tgt.trq := .none } := by
  rw [hjAccept, accept_eq]
  rfl

theorem crAccept_eq (st : Strat) (s : State) :
    setLife .tgtreq (accept opCrReq st s.arg.arg2 s) = { acceptedAs 0x33 st s.arg.arg2 s with ctl.life := .tgtreq } := by
  rw [accept_eq]
  rfl

theorem ibiAccept_eq (st : Strat) (s : State) : ibiAccept st s =
    { acceptedAs 0x34 st s.arg.arg2 s with
      ctl.life := .tgtreq
      cnt.txptr := byteAt s s.arg.arg0.toNat 0
      cnt.txrem := s.arg.arg1
      cnt.datacnt := 0
      tgt.tgtlen := s.arg.arg1
      fifo := Fifos.reset } := by
  rw [ibiAccept, accept_eq]
  rfl

theorem hjArgsOk_iff : (!s.cfg.dav) = true ↔ ¬s.cfg.dav = true := by simp

theorem crArgsOk_iff :
    (s.cfg.dav && controllerCapable s) = true ↔ ¬(s.cfg.dav = false ∨ bitField s.cfg.bcr 6 2 ≠ 1) := by
  simp [controllerCapable]

theorem ibiArgsOk_iff : ibiArgsOk s = true ↔
    ¬(s.cfg.dav = false ∨ 0xFF < s.arg.arg1.toNat ∨ (s.arg.arg1 ≠ 0 ∧ s.cfg.bcr.getLsbD 2 = false) ∨
      s.cfg.bcr.getLsbD 1 = false) := by
  simp [ibiArgsOk, and_assoc, or_iff_not_imp_left]

end

/-- Settles O38: the gate has passed, so the length alone decides (`tgtLenOk_iff`). -/
theorem targetTransfersAccepted : Obligations.TargetTransfersAccepted := by
  intro st sub s hready hst bad pointer
  have hgate := hready.gate_passed (needsBus := false) nofun hst
  exact ⟨congrArg _ (longCommand_of_passed hgate tgtLenOk_iff (tgtTxAccept_eq st s)),
    congrArg _ (longCommand_of_passed hgate tgtLenOk_iff (tgtRxAccept_eq st s))⟩

/-- Settles O39: the gate has passed, so each request's own argument checks decide. -/
theorem targetRequestsAccepted : Obligations.TargetRequestsAccepted := by
  intro st sub s hready hst
  have hstrat : StratOk [.poll, .irq] st s := by
    rcases hst with rfl | rfl <;> exact stratOk_of_not_dma (by decide) nofun
  have hgate := hready.gate_passed (needsBus := false) nofun hstrat
  exact ⟨congrArg _ (longCommand_of_passed hgate hjArgsOk_iff (hjAccept_eq st s)),
    congrArg _ (longCommand_of_passed (act := fun s => setLife .tgtreq (accept opCrReq st s.arg.arg2 s)) hgate crArgsOk_iff
      (crAccept_eq st s)),
    congrArg _ (longCommand_of_passed hgate ibiArgsOk_iff (ibiAccept_eq st s))⟩

end Sys2Proof.Machine
end

section
/-! SUPPORT. The ENGINE steps of a pending target request (spec/44_target.md R425, R430, R436, R437), and what a notification
leaves of the state (spec/46_events.md R542). -/

namespace Sys2Proof.Machine

/-! ## Notifications -/

section
variable (f : Flag) (l : Life) (s : State)

/-- A notification touches ISR and the snapshot slots alone. -/
theorem exists_notify_eq : ∃ isr slots, notify f s = { s with rep.isr := isr, snap.slots := slots } := by
  unfold notify capture
  split
  · cases slotOf f with
    | none => exact ⟨_, _, rfl⟩
    | some i => exact ⟨_, _, rfl⟩
  · exact ⟨_, _, rfl⟩

theorem notify_ctl : (notify f s).ctl = s.ctl := by
  obtain ⟨_, _, h⟩ := exists_notify_eq f s
  rw [h]

theorem notify_cnt : (notify f s).cnt = s.cnt := by
  obtain ⟨_, _, h⟩ := exists_notify_eq f s
  rw [h]

theorem notify_rep_callerr : (notify f s).rep.callerr = s.rep.callerr := by
  obtain ⟨_, _, h⟩ := exists_notify_eq f s
  rw [h]

/-- STATE is in no snapshot. -/
theorem notify_setLife : notify f (setLife l s) = setLife l (notify f s) := by
  have hnotifies : notifies f (setLife l s) = notifies f s := rfl
  unfold notify capture
  rw [hnotifies]
  split
  · cases slotOf f <;> rfl
  · rfl

end

/-! ## The ends of a request -/

section
variable {s : State} {k : ErrCode}

theorem requestDone_eq (c : Code) (aux : BitVec 16) (s : State) : requestDone c aux s = endedWith 9 (codeBits c) aux s := rfl

/-- No request is in flight, and the payload that was not sent is dropped (R437). -/
def payloadDropped (s : State) : State := { s with tgt.trq := .none, cnt.txrem := 0, fifo.txfifo := [] }

/-- An acknowledged IBI is over (R437). -/
theorem ibiEnd_eq (s : State) :
    ibiEnd s = endedWith 9 0 (bitField s.cnt.datacnt 0 16) (notify .nIbiEnd (payloadDropped s)) := by
  have hcount : (notify .nIbiEnd (payloadDropped s)).cnt.datacnt = s.cnt.datacnt := by
    rw [notify_cnt]
    rfl
  rw [ibiEnd, notify_setLife, ← hcount]
  rfl

/-! ## TREQ (R425, R430, R436) -/

/-- A request without its grant is not made; one that is made is answered in one of four ways. -/
theorem treqStep_answers {a : Addr7} {rnw granted : Bool} {c : Code} {acked : State → State} {t : State}
    (hacked : acked (driven (.treq a rnw) s) = t) :
    (granted = false → treqStep a rnw granted c acked s = endedWith 9 5 0 s) ∧
      (granted = true →
        (Answered .lost s → treqStep a rnw granted c acked s = driven (.treq a rnw) s) ∧
          (Answered .nack s → treqStep a rnw granted c acked s = endedWith 9 (codeBits c) 0 (driven (.treq a rnw) s)) ∧
          (Answered .ack s → treqStep a rnw granted c acked s = t) ∧
          ∀ k ∈ ([.te6, .stall] : List ErrCode), Answered (.err k) s →
            treqStep a rnw granted c acked s = raiseTarget k (driven (.treq a rnw) s)) := by
  refine ⟨fun h => if_neg (ne_true_of_eq_false h), fun h => ?_⟩
  rw [treqStep, if_pos h, ← hacked]
  exact ⟨fun ha => phy_answered ha rfl, fun ha => phy_answered ha rfl, fun ha => phy_answered ha rfl,
    fun k hk ha => phy_answered ha ((targetKind_iff k).mpr hk)⟩

/-- With a free bus, the pending command says which request is made. -/
theorem targetRequestStep_idle (hphase : s.tgt.phase = .idle) (htrq : s.tgt.trq = .none) (hcmdp : s.ctl.cmdp = true) :
    (s.ctl.pendop = 0x32 → targetRequestStep s =
        treqStep 0x02 false s.tst.enhj .refused (fun t => { t with tgt.trq := .hjWaitDaa }) s) ∧
      (s.ctl.pendop = 0x33 → targetRequestStep s =
        treqStep s.cfg.da false s.tst.encr .refused (fun t => { t with tgt.trq := .crWaitGetacccr }) s) ∧
      (s.ctl.pendop = 0x34 → targetRequestStep s = treqStep s.cfg.da true s.tst.enint .nacked ibiAcked s) := by
  refine ⟨?_, ?_, ?_⟩ <;> intro hop <;>
    simp [targetRequestStep, htrq, hphase, pending, hcmdp, hop, opHjReq, opCrReq, opIbiReq, hotJoinAddr]

/-- Until the controller has answered an acknowledged request, and on a bus in use, nothing is done. -/
theorem targetRequestStep_waits
    (h : s.tgt.trq = .hjWaitDaa ∨ s.tgt.trq = .crWaitGetacccr ∨ (s.tgt.trq = .none ∧ s.tgt.phase ≠ .idle)) :
    targetRequestStep s = s := by
  rcases h with h | h | ⟨h, hphase⟩
  · rw [targetRequestStep, h]
  · rw [targetRequestStep, h]
  · rw [targetRequestStep, h]
    exact if_pos hphase

/-! ## The payload of an IBI (R437) -/

theorem targetRequestStep_ibiData (htrq : s.tgt.trq = .ibiData) (hcmdp : s.ctl.cmdp = true) (hop : s.ctl.pendop = 0x34) :
    targetRequestStep s = ibiDataStep s := by
  rw [targetRequestStep, htrq]
  exact if_pos (pending_iff.mpr ⟨hcmdp, hop⟩)

theorem ibiDataStep_of_nil (h : s.fifo.txfifo = []) : ibiDataStep s = s := by
  rw [ibiDataStep, h]

section
variable {b : Byte} {bs : List Byte}

/-- The byte that went out was the head of TXFIFO. -/
theorem popTx_driven (r : PhyReq) (hhead : s.fifo.txfifo = b :: bs) :
    popTx (driven r s) = { driven r s with fifo.txfifo := bs } := by
  rw [popTx, driven, hhead]
  rfl

/-- The request for the head of TXFIFO, told whether it is the last byte of the payload. -/
def ibiByteReq (b : Byte) (s : State) : PhyReq := .tbyte b (decide (s.cnt.datacnt + 1 = s.tgt.tgtlen))

theorem ibiDataStep_ok (hhead : s.fifo.txfifo = b :: bs) (h : Answered .ok s) :
    let t := { driven (ibiByteReq b s) s with fifo.txfifo := bs, cnt.datacnt := s.cnt.datacnt + 1 }
    ibiDataStep s = if s.cnt.datacnt + 1 = s.tgt.tgtlen then ibiEnd t else t := by
  simp only [ibiDataStep, hhead, beq_eq_decide]
  exact (phy_answered h rfl).trans (congrArg (fun t : State =>
    if (countByte t).cnt.datacnt = (countByte t).tgt.tgtlen then ibiEnd (countByte t) else countByte t)
    (popTx_driven (ibiByteReq b s) hhead))

theorem ibiDataStep_stopped (hhead : s.fifo.txfifo = b :: bs) (h : Answered .stopped s) :
    ibiDataStep s = ibiEnd (driven (ibiByteReq b s) s) := by
  simp only [ibiDataStep, hhead, beq_eq_decide]
  exact phy_answered h rfl

theorem ibiDataStep_err (hhead : s.fifo.txfifo = b :: bs) (hk : k ∈ [ErrCode.te6, .stall]) (h : Answered (.err k) s) :
    ibiDataStep s = raiseTarget k (driven (ibiByteReq b s) s) := by
  simp only [ibiDataStep, hhead, beq_eq_decide]
  exact phy_answered h ((targetKind_iff k).mpr hk)

end

theorem ibiAcked_eq (s : State) : ibiAcked s = if s.tgt.tgtlen = 0 then ibiEnd s else { s with tgt.trq := .ibiData } := rfl

end

/-- Settles O40: the three requests share `treqStep`, the payload bytes are `ibiDataStep`; one lemma for each answer. -/
theorem targetRequestAnswers : Obligations.TargetRequestAnswers := by
  intro s hcmdp failed ibiOver
  have hover : ∀ t, ibiEnd t = ibiOver t := ibiEnd_eq
  refine ⟨fun hphase htrq => ?requests, fun htrq hop => ?payload, targetRequestStep_waits⟩
  case requests =>
    obtain ⟨hhj, hcr, hibi⟩ := targetRequestStep_idle hphase htrq hcmdp
    refine List.forall_mem_cons.mpr ⟨fun hop => ?hj, List.forall_mem_cons.mpr ⟨fun hop => ?cr,
      List.forall_mem_singleton.mpr fun hop => ?ibi⟩⟩
    case hj =>
      rw [hhj hop]
      exact treqStep_answers rfl
    case cr =>
      rw [hcr hop]
      exact treqStep_answers rfl
    case ibi =>
      rw [hibi hop]
      refine treqStep_answers ?_
      rw [ibiAcked_eq, hover]
      exact if_congr (and_iff_right rfl).symm rfl rfl
  case payload =>
    rw [targetRequestStep_ibiData htrq hcmdp hop]
    refine ⟨ibiDataStep_of_nil, ?_⟩
    intro b bs hhead last r t
    refine ⟨fun ha => ?_, fun ha => ?_, fun k hk => ibiDataStep_err hhead hk⟩
    · rw [ibiDataStep_ok hhead ha, hover]
      exact if_congr decide_eq_true_iff.symm rfl rfl
    · rw [ibiDataStep_stopped hhead ha, hover]
      rfl

end Sys2Proof.Machine
end

section
/-! SUPPORT. The PHY's events in target role (spec/44_target.md R424, R427; spec/45_ccc_decoder.md R474): when the target
ignores them, what START, a repeated START and STOP do, and role acquisition (R432). -/

namespace Sys2Proof.Machine

/-! ## The CCC in force -/

section
variable {c : Byte}

/-- Where the undefined direct codes stand in the table (spec/30_encoding.md R215). -/
theorem cccClass_eq_undefined_iff (h : 0x80 ≤ c.toNat) :
    cccClass c = .undefined ↔ (0x9E ≤ c.toNat ∧ c.toNat ≤ 0xDF) ∨ c.toNat = 0xFF := by
  revert c
  decide

theorem cccOf_eq_none_of_undefined (h : cccClass c = .undefined) : cccOf c = none := by
  revert c
  decide

/-- An undefined code is no instruction (spec/45_ccc_decoder.md R477). -/
theorem cccClass_ne_undefined {i : Instr} {r : List Byte} (h : decode .ccc [c] = .ok (i, r)) : cccClass c ≠ .undefined := by
  intro hclass
  rw [decode, decodeCcc, cccOf_eq_none_of_undefined hclass, hclass] at h
  cases h

end

section
variable {s : State} {i : Instr} {r : List Byte} {k : State → State}

theorem cccStep_of_ok (h : decode .ccc [s.tgt.ccccur] = .ok (i, r)) : cccStep k s = exec i s := by
  rw [cccStep, h]

theorem cccStep_of_error {e : DecodeError} (h : decode .ccc [s.tgt.ccccur] = .error e) : cccStep k s = .next (k s) := by
  rw [cccStep, h]

end

/-! ## When the target ignores the bus -/

section
variable {s : State}

theorem ignoring_iff : ignoring s = true ↔ s.tgt.ignstop = true ∧
    (s.tgt.phase = .ignore ∨ (s.tgt.phase = .direct ∧ cccClass s.tgt.ccccur = .undefined)) := by
  simp [ignoring]

/-- Only in two phases does the target wait for STOP. -/
theorem not_ignoring_of_phase (hignore : s.tgt.phase ≠ .ignore) (hdirect : s.tgt.phase ≠ .direct) : ¬ignoring s = true := by
  intro h
  obtain ⟨-, h | ⟨h, -⟩⟩ := ignoring_iff.mp h
  · exact hignore h
  · exact hdirect h

theorem inHdr_iff : inHdr s = true ↔
    s.tgt.phase = .ignore ∧ s.tgt.ignstop = true ∧ 0x20 ≤ s.tgt.ccccur.toNat ∧ s.tgt.ccccur.toNat ≤ 0x27 := by
  simp [inHdr, and_assoc]

theorem eventKind_iff (k : ErrCode) : eventKind k = true ↔ k ∈ [ErrCode.te2, .te3, .te4, .te6, .stall] := by
  cases k <;> decide

/-! ## START, a repeated START and STOP -/

section
variable {e : PhyEvent}

theorem targetEvent_ignored (he : e ∈ [PhyEvent.start, .rstart]) (h : ignoring s = true) : targetEvent e s = .next s := by
  simp only [List.mem_cons, List.not_mem_nil, or_false] at he
  rcases he with rfl | rfl <;> exact if_pos h

theorem targetEvent_frame (he : e ∈ [PhyEvent.start, .rstart, .stop]) (h : e = .stop ∨ ¬ignoring s = true) :
    targetEvent e s = frameTurn e s := by
  simp only [List.mem_cons, List.not_mem_nil, or_false] at he
  rcases he with rfl | rfl | rfl
  · exact if_neg (h.resolve_left nofun)
  · exact if_neg (h.resolve_left nofun)
  · rfl

theorem frameTurn_of_data (e : PhyEvent) (h : s.tgt.phase = .cccData ∨ s.tgt.phase = .directW) :
    frameTurn e s = cccStep (frameEvent e) s := by
  rcases h with h | h <;> rw [frameTurn, h]

theorem frameTurn_of_not_data (e : PhyEvent) (hdata : s.tgt.phase ≠ .cccData) (hwrite : s.tgt.phase ≠ .directW) :
    frameTurn e s = .next (frameEvent e (endMessage s)) := by
  unfold frameTurn
  split
  · next h => exact absurd h hdata
  · next h => exact absurd h hwrite
  · rfl

theorem endMessage_of_no_message (hwrite : s.tgt.phase ≠ .privW) (hread : s.tgt.phase ≠ .privR) : endMessage s = s := by
  unfold endMessage
  split
  · next h => exact absurd h hwrite
  · next h => exact absurd h hread
  · rfl

/-- With no message and no CCC data in progress, the event is all there is. -/
theorem targetEvent_frame_alone (he : e ∈ [PhyEvent.start, .rstart, .stop]) (h : e = .stop ∨ ¬ignoring s = true)
    (hphase : s.tgt.phase ∉ [TgtPhase.privW, .privR, .cccData, .directW]) :
    targetEvent e s = .next (frameEvent e s) := by
  simp only [List.mem_cons, List.not_mem_nil, or_false, not_or] at hphase
  obtain ⟨hprivW, hprivR, hdata, hwrite⟩ := hphase
  rw [targetEvent_frame he h, frameTurn_of_not_data e hdata hwrite, endMessage_of_no_message hprivW hprivR]

end

/-! ## Role acquisition (R432) -/

/-- Controller-role acquisition, before the pending command ends. -/
def roleAcquired (s : State) : State :=
  { notify .nGetacccr { s with ctl.mode := .controller, tgt.handoff := false, tgt.phase := .idle, tgt.trq := .none } with
    ctl.listen := false }

theorem relisten_of_controller (h : s.ctl.mode = .controller) : relisten s = { s with ctl.listen := false } := by
  have hlisten : listenOf s.ctl.mode s.rep.noten = false := by
    rw [h]
    rfl
  rw [relisten, hlisten]

theorem roleAcquired_ctl (s : State) :
    (roleAcquired s).ctl = { s.ctl with mode := .controller, listen := false } := by
  rw [roleAcquired, notify_ctl]

theorem roleAcquired_cnt (s : State) : (roleAcquired s).cnt = s.cnt := by
  rw [roleAcquired, notify_cnt]

theorem roleAcquired_rep_callerr (s : State) : (roleAcquired s).rep.callerr = s.rep.callerr := by
  rw [roleAcquired, notify_rep_callerr]

/-- Only a target request is flagged when the role is acquired under it. -/
theorem flagRequest_roleAcquired (h : s.ctl.cmdp = true) : flagRequest (roleAcquired s) =
    if s.ctl.pendop = 0x32 ∨ s.ctl.pendop = 0x33 ∨ s.ctl.pendop = 0x34 then flag .treqDone (roleAcquired s)
    else roleAcquired s := by
  have hpending : requestPending (roleAcquired s) = requestPending s := by
    simp only [requestPending, pending, roleAcquired_ctl]
  refine if_congr ?_ rfl rfl
  rw [hpending, requestPending_iff, and_iff_right h]

theorem flagRequest_rep_callerr (s : State) : (flagRequest s).rep.callerr = s.rep.callerr := by
  unfold flagRequest
  split <;> rfl

/-- A command ends ABORTED (spec/41_controller.md R283), but for its flag. -/
def commandAborted (aux : BitVec 16) (errors : BitVec 19) (s : State) : State :=
  { s with
    ctl.life := .idle, ctl.cmdp := false, ctl.tmo := false, rep.code := 7, rep.aux := aux, rep.reserr := errors }

/-- The role is acquired, and the pending command ends: CR_REQ with OK, any other ABORTED (R432). -/
theorem acquireRole_eq (s : State) : acquireRole s =
    if s.ctl.cmdp = true then
      if s.ctl.pendop = 0x33 then endedWith 9 0 0 (roleAcquired s)
      else commandAborted (bitField s.cnt.datacnt 0 16) s.rep.callerr (flagRequest (roleAcquired s))
    else roleAcquired s := by
  have hacquired : relisten (notify .nGetacccr
      { s with ctl.mode := .controller, tgt.handoff := false, tgt.phase := .idle, tgt.trq := .none }) = roleAcquired s :=
    relisten_of_controller (by rw [notify_ctl])
  have haborted : finish .aborted (bitField (roleAcquired s).cnt.datacnt 0 16)
      (setLife .idle (flagRequest (roleAcquired s))) =
      commandAborted (bitField s.cnt.datacnt 0 16) s.rep.callerr (flagRequest (roleAcquired s)) := by
    rw [roleAcquired_cnt, ← roleAcquired_rep_callerr, ← flagRequest_rep_callerr]
    rfl
  unfold acquireRole
  simp only [hacquired, haborted, pending_iff, roleAcquired_ctl]
  cases s.ctl.cmdp with
  | false => simp only [Bool.false_eq_true, false_and, if_false]
  | true =>
    simp only [true_and, if_true]
    rfl

/-- The target path at a STOP (R424). -/
def frameClosed (s : State) : State := { s with tgt.phase := .idle, tgt.ccccur := 0, tgt.ignstop := false }

theorem frameEvent_stop_of_no_handoff (h : s.tgt.handoff = false) : frameEvent .stop s = frameClosed s :=
  if_neg (ne_true_of_eq_false h)

/-- A STOP after a GETACCCR answered hands the controller role over. -/
theorem frameEvent_stop_of_handoff (h : s.tgt.handoff = true) : frameEvent .stop s = acquireRole (frameClosed s) := if_pos h

end

/-- Settles O60: the target ignores the bus where `ignoring` says so and takes every other event; the STOP that hands the role
over is `acquireRole_eq`. -/
theorem frameEvents : Obligations.FrameEvents := by
  intro s hdr cur undefinedCode
  have hhdr : inHdr s = true ↔ hdr := inHdr_iff
  refine ⟨rfl, rfl, fun e he hstop h => ?ignored, fun e he h => ?taken, fun h => ?others,
    frameEvent_stop_of_no_handoff, ?role⟩
  case ignored =>
    refine targetEvent_ignored he (ignoring_iff.mpr ⟨hstop, h.imp_right fun ⟨hdirect, hundefined⟩ => ⟨hdirect, ?_⟩⟩)
    exact (cccClass_eq_undefined_iff (by omega)).mpr hundefined
  case taken =>
    rcases h with h | ⟨hphase, h⟩ | ⟨hphase, h⟩
    · simp only [List.mem_cons, List.not_mem_nil, or_false, not_or] at h
      obtain ⟨hignore, hprivW, hprivR, hdata, hwrite, hdirect⟩ := h
      exact targetEvent_frame_alone he (.inr (not_ignoring_of_phase hignore hdirect)) (by simp [*])
    · refine targetEvent_frame_alone he (h.symm.imp_right fun hstop hign => ?_) (by simp [hphase])
      obtain ⟨hyes, -⟩ := ignoring_iff.mp hign
      exact Bool.false_ne_true (hstop.symm.trans hyes)
    · refine targetEvent_frame_alone he (or_iff_not_imp_left.mpr fun hstop hign => ?_) (by simp [hphase])
      obtain ⟨hyes, hignore | ⟨-, hundefined⟩⟩ := ignoring_iff.mp hign
      · exact absurd (hphase.symm.trans hignore) (by decide)
      · rcases h with h | h | ⟨hdirect, h⟩
        · exact Bool.false_ne_true (h.symm.trans hyes)
        · exact hstop h
        · exact h ((cccClass_eq_undefined_iff hdirect).mp hundefined)
  case others =>
    have hnot : ¬inHdr s = true := mt hhdr.mp h
    refine ⟨congrArg _ (if_neg hnot), congrArg _ (if_neg hnot), fun k => congrArg _ (if_congr ?_ rfl rfl)⟩
    rw [Bool.eq_false_of_not_eq_true hnot, Bool.not_false, Bool.and_true, eventKind_iff]
  case role =>
    intro h n t aborted
    have hstop : frameEvent .stop s = if s.ctl.cmdp = true then
        if s.ctl.pendop = 0x33 then endedWith 9 0 0 t
        else commandAborted (bitField s.cnt.datacnt 0 16) s.rep.callerr (flagRequest t)
      else t := (frameEvent_stop_of_handoff h).trans (acquireRole_eq (frameClosed s))
    refine ⟨fun hcmdp => hstop.trans (if_neg (ne_true_of_eq_false hcmdp)), fun hcmdp => ?_⟩
    have hflag : flagRequest t =
        if s.ctl.pendop = 0x32 ∨ s.ctl.pendop = 0x33 ∨ s.ctl.pendop = 0x34 then flag .treqDone t else t :=
      flagRequest_roleAcquired (s := frameClosed s) hcmdp
    rw [hstop, if_pos hcmdp, hflag]
    refine ⟨fun hop => if_pos hop, fun hop => ?request, fun hop => ?other⟩
    case request =>
      rw [if_neg (by rcases hop with hop | hop <;> rw [hop] <;> decide), if_pos (hop.imp_right .inr)]
      rfl
    case other =>
      simp only [List.mem_cons, List.not_mem_nil, or_false] at hop
      rw [if_neg fun hcr => hop (.inr (.inl hcr)), if_neg hop]
      rfl

end Sys2Proof.Machine
end

section
/-! SUPPORT. Private transfers in target role (spec/44_target.md R421, R423, R427, R428): the answer to an address, the bytes
of a private write and of a private read, the ends of messages and of TGT_TX and TGT_RX. -/

namespace Sys2Proof.Machine

/-! ## Address match (R427) -/

section
variable {a : Addr7} {rnw : Bool} {s : State}

theorem te0Addr_iff (a : Addr7) :
    te0Addr a = true ↔ a ∈ ([0x3E, 0x5E, 0x6E, 0x76, 0x7A, 0x7C, 0x7F] : List Addr7) := by
  revert a
  decide

theorem own_iff : own s a = true ↔
    (s.cfg.dav = true ∧ a = s.cfg.da) ∨ (s.cfg.dav = false ∧ s.cfg.sav = true ∧ a = s.cfg.sa) := by
  simp [own, and_assoc]

theorem targetEvent_addr (h : s.tgt.phase = .addr) : targetEvent (.addr a rnw) s = matchAddr a rnw s := if_pos h

/-- Outside T_ADDR an address is only NACKed (log entry 15). -/
theorem targetEvent_addr_outside (h : s.tgt.phase ≠ .addr) :
    targetEvent (.addr a rnw) s = .next { s with env.bus := .answer false :: s.env.bus } := if_neg h

/-- The message of the pending command `op` has not ended. -/
def Armed (op : Byte) (s : State) : Prop := s.ctl.cmdp = true ∧ s.ctl.pendop = op ∧ s.tgt.tgtend = false

theorem armed_iff {op : Byte} : pending op s = true ∧ s.tgt.tgtend = false ↔ Armed op s := by
  rw [pending_iff, and_assoc, Armed]

theorem matchAddr_ccc (h : a = 0x7E ∧ rnw = false) : matchAddr a rnw s = .next (ackAddr .ccc s) := if_pos h

theorem matchAddr_te0 (hccc : ¬(a = 0x7E ∧ rnw = false)) (h : a = 0x7E ∨ te0Addr a = true) :
    matchAddr a rnw s = .next (nackAddr (detect .te0 s)) := (if_neg hccc).trans (if_pos h)

/-- The addresses of R427's cases 3 to 6. -/
theorem matchAddr_of_other (h : ¬(a = 0x7E ∨ te0Addr a = true)) : matchAddr a rnw s =
    if own s a = true ∧ 0x80 ≤ s.tgt.ccccur.toNat then cccStep nackAddr s
    else if own s a = true ∧ rnw = false ∧ pending opTgtRx s = true ∧ s.tgt.tgtend = false then .next (ackAddr .privW s)
    else if own s a = true ∧ rnw = true ∧ pending opTgtTx s = true ∧ s.tgt.tgtend = false then .next (ackAddr .privR s)
    else .next (nackAddr s) := (if_neg fun hccc => h (.inl hccc.1)).trans (if_neg h)

end

/-! ## Bytes of a message (R421, R423) -/

section
variable {b : Byte} {bs : List Byte} {s : State}

theorem readLimit_toNat (s : State) : (readLimit s).toNat =
    if s.cfg.mrl = 0 then s.tgt.tgtlen.toNat else min s.tgt.tgtlen.toNat s.cfg.mrl.toNat :=
  writeLimit_toNat { s with cfg.mwl := s.cfg.mrl }

theorem targetEvent_privW (h : s.tgt.phase = .privW) : targetEvent (.byte b) s =
    .next (if s.cnt.datacnt.toNat = (writeLimit s).toNat then raiseError .dovr s
      else { s with fifo.rxfifo := s.fifo.rxfifo ++ [b], cnt.datacnt := s.cnt.datacnt + 1 }) := by
  rw [targetEvent, byteTurn, h]
  exact congrArg Host.Outcome.next (if_congr BitVec.toNat_inj.symm rfl rfl)

/-- The last byte that a private read may take (R421). -/
def lastRead (s : State) : Bool :=
  decide ((s.cnt.datacnt + 1).toNat =
    if s.cfg.mrl = 0 then s.tgt.tgtlen.toNat else min s.tgt.tgtlen.toNat s.cfg.mrl.toNat)

theorem beq_readLimit (s : State) : (s.cnt.datacnt + 1 == readLimit s) = lastRead s := by
  rw [lastRead, ← readLimit_toNat, beq_eq_decide]
  exact decide_eq_decide.mpr BitVec.toNat_inj.symm

theorem targetStep_drive_privR (h : s.tgt.phase = .privR) : targetStep .drive s = .next (privReadStep s) := by
  rw [targetStep, h]

/-- What the answer to a byte of a private read does. -/
def readAnswered (last : Bool) (a : PhyAnswer) (t : State) : State :=
  match a with
  | .ok => if last then endRead { countByte (popTx t) with tgt.phase := .ignore } else countByte (popTx t)
  | .stopped => endRead t
  | .err k => raiseTarget k t
  | _ => t

section
variable (harmed : Armed 0x30 s)
include harmed

theorem serves_of_armed : (pending opTgtTx s && !s.tgt.tgtend) = true := by
  rw [Bool.and_eq_true, Bool.not_eq_true']
  exact armed_iff.mpr harmed

theorem privReadStep_of_nil (h : s.fifo.txfifo = []) : privReadStep s = s := by
  simp only [privReadStep, serves_of_armed harmed, h, if_true]

/-- The head of TXFIFO is driven while a TGT_TX serves the read. -/
theorem privReadStep_of_cons (h : s.fifo.txfifo = b :: bs) :
    privReadStep s = phy (.tbyte b (lastRead s)) (readAnswered (lastRead s)) s := by
  simp only [privReadStep, serves_of_armed harmed, h, beq_readLimit, if_true]
  rfl

theorem privReadStep_ok (hhead : s.fifo.txfifo = b :: bs) (h : Answered .ok s) :
    let t := { driven (.tbyte b (lastRead s)) s with fifo.txfifo := bs, cnt.datacnt := s.cnt.datacnt + 1 }
    privReadStep s = if lastRead s then endRead { t with tgt.phase := .ignore } else t := by
  refine (privReadStep_of_cons harmed hhead).trans ((phy_answered h rfl).trans ?_)
  exact congrArg (fun t : State =>
    if lastRead s then endRead { countByte t with tgt.phase := .ignore } else countByte t) (popTx_driven _ hhead)

theorem privReadStep_stopped (hhead : s.fifo.txfifo = b :: bs) (h : Answered .stopped s) :
    privReadStep s = endRead (driven (.tbyte b (lastRead s)) s) :=
  (privReadStep_of_cons harmed hhead).trans (phy_answered h rfl)

theorem privReadStep_err {k : ErrCode} (hhead : s.fifo.txfifo = b :: bs) (hk : k ∈ [ErrCode.te6, .stall])
    (h : Answered (.err k) s) : privReadStep s = raiseTarget k (driven (.tbyte b (lastRead s)) s) :=
  (privReadStep_of_cons harmed hhead).trans (phy_answered h ((targetKind_iff k).mpr hk))

end

/-! ## Ends (R428) -/

/-- A message ends at START, a repeated START or STOP. -/
theorem targetEvent_frame_message {e : PhyEvent} (he : e ∈ [PhyEvent.start, .rstart, .stop])
    (h : s.tgt.phase = .privW ∨ s.tgt.phase = .privR) : targetEvent e s = .next (frameEvent e (endMessage s)) := by
  have hphase : s.tgt.phase ∉ [TgtPhase.ignore, .direct, .cccData, .directW] := by
    rcases h with h | h <;> rw [h] <;> decide
  simp only [List.mem_cons, List.not_mem_nil, or_false, not_or] at hphase
  obtain ⟨hignore, hdirect, hdata, hwrite⟩ := hphase
  rw [targetEvent_frame he (.inr (not_ignoring_of_phase hignore hdirect)), frameTurn_of_not_data e hdata hwrite]

theorem endMessage_privW (h : s.tgt.phase = .privW) : endMessage s = endWrite s := by rw [endMessage, h]

theorem endMessage_privR (h : s.tgt.phase = .privR) : endMessage s = endRead s := by rw [endMessage, h]

theorem closeStep_eq (s : State) : closeStep s =
    if s.ctl.cmdp = true ∧ (s.ctl.pendop = 0x30 ∨ s.ctl.pendop = 0x31) ∧ s.tgt.tgtend = true ∧ s.cnt.rxrem = 0 then
      endedWith 8 0 (bitField s.cnt.datacnt 0 16) { s with tgt.tgtend := false }
    else s := by
  refine if_congr ?_ rfl rfl
  simp only [Bool.and_eq_true, Bool.or_eq_true, pending_iff, beq_iff_eq, ← and_or_left, and_assoc]
  rfl

end

/-- Settles O41: an address is answered by `matchAddr`, a read byte is `privReadStep`, and every message ends in
`endMessage`. -/
theorem targetPrivateTransfer : Obligations.TargetPrivateTransfer := by
  intro b bs s wlim rlim writeOver readOver
  refine ⟨?address, fun hphase => ⟨?byte, fun e he => ?endWrite⟩, fun hphase => ⟨fun e he => ?endRead, ?read⟩,
    congrArg _ (closeStep_eq s)⟩
  case address =>
    intro a rnw acked nacked mine near armed
    refine ⟨targetEvent_addr_outside, fun hphase => ?_⟩
    have hown : own s a = true ↔ mine := own_iff
    have haddr : targetEvent (.addr a rnw) s = matchAddr a rnw s := targetEvent_addr hphase
    split_ifs with hccc hnear hdirect hwrite hread
    · exact haddr.trans (matchAddr_ccc hccc)
    · exact haddr.trans (matchAddr_te0 hccc (hnear.imp_right (te0Addr_iff a).mpr))
    all_goals
      have hother := haddr.trans (matchAddr_of_other (mt (Or.imp_right (te0Addr_iff a).mp) hnear))
    · have hccc := hother.trans (if_pos (hdirect.imp_left hown.mpr))
      exact ⟨fun i r hi => hccc.trans (cccStep_of_ok hi), fun e he => hccc.trans (cccStep_of_error he)⟩
    all_goals
      have hpriv := hother.trans (if_neg (mt (And.imp_left hown.mp) hdirect))
    · exact hpriv.trans (if_pos (hwrite.imp hown.mpr (And.imp_right armed_iff.mpr)))
    all_goals
      have hpriv' := hpriv.trans (if_neg (mt (And.imp hown.mp (And.imp_right armed_iff.mp)) hwrite))
    · exact hpriv'.trans (if_pos (hread.imp hown.mpr (And.imp_right armed_iff.mpr)))
    · exact hpriv'.trans (if_neg (mt (And.imp hown.mp (And.imp_right armed_iff.mp)) hread))
  case byte => rw [targetEvent_privW hphase, writeLimit_toNat]
  case endWrite =>
    rw [targetEvent_frame_message he (.inl hphase), endMessage_privW hphase]
    rfl
  case endRead =>
    rw [targetEvent_frame_message he (.inr hphase), endMessage_privR hphase]
    rfl
  case read =>
    intro hcmdp hop htgtend
    have harmed : Armed 0x30 s := ⟨hcmdp, hop, htgtend⟩
    rw [targetStep_drive_privR hphase]
    exact ⟨fun hnil => congrArg _ (privReadStep_of_nil harmed hnil), fun hhead =>
      ⟨fun ha => congrArg _ (privReadStep_ok harmed hhead ha), fun ha => congrArg _ (privReadStep_stopped harmed hhead ha),
        fun k hk ha => congrArg _ (privReadStep_err harmed hhead hk ha)⟩⟩

end Sys2Proof.Machine
end

section
/-! SUPPORT. Which CCC a turn in target role runs (spec/44_target.md R424, R427; spec/45_ccc_decoder.md R460–R463, R468,
R479): the code received, or the code in force. -/

namespace Sys2Proof.Machine

/-! ## Turns of the target path -/

section
variable {s : State} {turns : List Turn}

/-- The machines of the target path run: the parameters are legal, no abort is requested, the block is initialised. -/
def TargetRuns (s : State) : Prop :=
  s.env.params.legal = true ∧ s.ctl.mode = .target ∧ s.ctl.abortreq = false ∧ s.ctl.life ≠ .reset ∧ s.ctl.life ≠ .init

theorem step_of_targetEngine {u : EngineUnit} {a : PhyAnswer} (h : TargetRuns s)
    (hagenda : s.env.agenda = .engine u a :: turns) :
    step s = targetStep u { s with env.agenda := turns, env.cue := .answer a } := by
  obtain ⟨hlegal, hmode, habort, hrun⟩ := h
  exact (step_of_agenda hlegal hagenda).trans (engineTurn_target u a habort hrun hmode)

/-- Only in a private write can an event wait. -/
theorem step_of_targetEvent {e : PhyEvent} {es : List PhyEvent} (h : TargetRuns s) (hagenda : s.env.agenda = .event :: turns)
    (hevents : s.env.events = e :: es) (hphase : s.tgt.phase ≠ .privW) :
    step s = targetEvent e { s with env.agenda := turns, env.events := es, env.cue := .event e } := by
  obtain ⟨hlegal, hmode, habort, hrun⟩ := h
  have htaken : ¬((∃ b, e = .byte b) ∧ privWriteHolds { s with env.agenda := turns } = true) := by
    rintro ⟨-, hholds⟩
    obtain ⟨hprivW, -⟩ := privWriteHolds_iff.mp hholds
    exact hphase hprivW
  exact (step_of_agenda hlegal hagenda).trans
    ((eventTurn_target (s := { s with env.agenda := turns }) hevents habort hmode (running_iff.mpr hrun)).trans (if_neg htaken))

end

/-! ## Events that run a CCC -/

section
variable {s : State} {i : Instr}

theorem targetEvent_code {c : Byte} (hphase : s.tgt.phase = .ccc) (h : decode .ccc [c] = .ok (i, [])) :
    targetEvent (.byte c) s = exec i s := by
  rw [targetEvent, byteTurn, hphase]
  simp only [codeByte, h]

/-- The data of the CCC in force, and the frame event that ends them. -/
theorem targetEvent_data {e : PhyEvent} (hphase : s.tgt.phase = .cccData ∨ s.tgt.phase = .directW)
    (he : (∃ b, e = .byte b) ∨ e ∈ [PhyEvent.start, .rstart, .stop]) (h : decode .ccc [s.tgt.ccccur] = .ok (i, [])) :
    targetEvent e s = exec i s := by
  rcases he with ⟨b, rfl⟩ | he
  · rw [← cccStep_of_ok (k := id) h]
    rcases hphase with hphase | hphase <;> rw [targetEvent, byteTurn, hphase]
  · have hignoring : ¬ignoring s = true := by
      rcases hphase with hphase | hphase <;> exact not_ignoring_of_phase (by simp [hphase]) (by simp [hphase])
    rw [targetEvent_frame he (.inr hignoring), frameTurn_of_data e hphase, cccStep_of_ok h]

/-- A CCC in force is no undefined code, so its defining byte is not ignored. -/
theorem targetEvent_defining {b : Byte} (hphase : s.tgt.phase = .direct) (h : decode .ccc [s.tgt.ccccur] = .ok (i, [])) :
    targetEvent (.byte b) s = exec i s := by
  have hignoring : ¬ignoring s = true := by
    intro hign
    obtain ⟨-, hignore | ⟨-, hundefined⟩⟩ := ignoring_iff.mp hign
    · exact absurd (hphase.symm.trans hignore) (by decide)
    · exact cccClass_ne_undefined h hundefined
  rw [targetEvent, byteTurn, hphase]
  exact (if_neg hignoring).trans (cccStep_of_ok h)

/-- An own address under a direct CCC. -/
theorem targetEvent_direct {a : Addr7} {rnw : Bool} (hphase : s.tgt.phase = .addr) (hcur : 0x80 ≤ s.tgt.ccccur.toNat)
    (hown : own s a = true) (hbroadcast : a ≠ 0x7E) (hte0 : te0Addr a = false)
    (h : decode .ccc [s.tgt.ccccur] = .ok (i, [])) : targetEvent (.addr a rnw) s = exec i s := by
  have hother : ¬(a = 0x7E ∨ te0Addr a = true) := not_or.mpr ⟨hbroadcast, ne_true_of_eq_false hte0⟩
  rw [targetEvent_addr hphase, matchAddr_of_other hother, if_pos ⟨hown, hcur⟩, cccStep_of_ok h]

theorem targetEvent_assignment {e : PhyEvent} (hphase : s.tgt.phase = .daa) (he : e = .daaSr ∨ ∃ a, e = .da a) :
    targetEvent e s = exec .entdaa s := by
  rcases he with rfl | ⟨a, rfl⟩ <;> exact if_pos hphase

theorem targetStep_response (hphase : s.tgt.phase = .directR) (h : decode .ccc [s.tgt.ccccur] = .ok (i, [])) :
    targetStep .drive s = exec i s := by
  rw [targetStep, hphase]
  exact cccStep_of_ok h

end

/-- Settles O7: the turn is a step of the target path, which decodes the code received or CCCCUR in the phase at hand. -/
theorem stepRunsCcc : Obligations.StepRunsCcc := by
  intro s turns i hlegal hmode habort hreset hinit
  have hruns : TargetRuns s := ⟨hlegal, hmode, habort, hreset, hinit⟩
  refine ⟨fun c es hagenda hevents hphase hdecode => ?code, fun e es hagenda hevents hdecode h => ?inForce,
    fun e es hagenda hevents hphase he => ?assignment, fun a hagenda hphase hdecode => ?response⟩
  case code =>
    rw [step_of_targetEvent hruns hagenda hevents (by rw [hphase]; decide)]
    exact targetEvent_code hphase hdecode
  case inForce =>
    rcases h with ⟨hphase, he⟩ | ⟨hphase, b, rfl⟩ | ⟨hphase, hcur, a, rnw, rfl, hown, hbroadcast, hte0⟩
    · rw [step_of_targetEvent hruns hagenda hevents (by rcases hphase with h | h <;> rw [h] <;> decide)]
      exact targetEvent_data hphase (he.imp_right (by simp)) hdecode
    · rw [step_of_targetEvent hruns hagenda hevents (by rw [hphase]; decide)]
      exact targetEvent_defining hphase hdecode
    · rw [step_of_targetEvent hruns hagenda hevents (by rw [hphase]; decide)]
      exact targetEvent_direct hphase hcur hown hbroadcast hte0 hdecode
  case assignment =>
    rw [step_of_targetEvent hruns hagenda hevents (by rw [hphase]; decide)]
    exact targetEvent_assignment hphase he
  case response =>
    rw [step_of_targetEngine hruns hagenda]
    exact targetStep_response hphase hdecode

end Sys2Proof.Machine
end

section
/-! SUPPORT. The CCC decoder of target role (spec/45_ccc_decoder.md R460–R463, R475, R477): what the three shapes of a CCC do in
each phase, which CCC has which shape, and what becomes of the codes that are no instruction. -/

namespace Sys2Proof.Machine

/-! ## The shapes, phase by phase -/

section
variable {s : State} {b : Byte} {a : Addr7} {rnw : Bool} {e : PhyEvent} {answer : PhyAnswer} {code : Byte}
  {effect sent : State → State} {ready : State → Bool} {response : State → List Byte}

/-! ### A broadcast CCC with data -/

theorem broadcastCcc_code (h : Takes (.byte b) s) (hphase : s.tgt.phase = .ccc) :
    broadcastCcc code effect s = receiveCode code .cccData s := by
  rw [broadcastCcc, h, hphase]

theorem broadcastCcc_data (h : Takes (.byte b) s) (hphase : s.tgt.phase = .cccData) :
    broadcastCcc code effect s = collect b s := by
  rw [broadcastCcc, h, hphase]

theorem broadcastCcc_end (he : e = .start ∨ e = .rstart ∨ e = .stop) (h : Takes e s) (hphase : s.tgt.phase = .cccData) :
    broadcastCcc code effect s = endData true effect e s := by
  rcases he with rfl | rfl | rfl <;> rw [broadcastCcc, h, hphase]

/-! ### A direct CCC that writes -/

theorem directWrite_code (h : Takes (.byte b) s) (hphase : s.tgt.phase = .ccc) :
    directWrite code ready effect s = receiveCode code .direct s := by
  rw [directWrite, h, hphase]

theorem directWrite_defining (h : Takes (.byte b) s) (hphase : s.tgt.phase = .direct) :
    directWrite code ready effect s = definingByte b s := by
  rw [directWrite, h, hphase]

theorem directWrite_data (h : Takes (.byte b) s) (hphase : s.tgt.phase = .directW) :
    directWrite code ready effect s = collect b s := by
  rw [directWrite, h, hphase]

theorem directWrite_end (he : e = .start ∨ e = .rstart ∨ e = .stop) (h : Takes e s) (hphase : s.tgt.phase = .directW) :
    directWrite code ready effect s = endData false effect e s := by
  rcases he with rfl | rfl | rfl <;> rw [directWrite, h, hphase]

theorem directWrite_addr (h : Takes (.addr a rnw) s) (hphase : s.tgt.phase = .addr) :
    directWrite code ready effect s =
      if rnw then nackAddr (detect .te5 s) else if ready s then writeAccepted s else nackAddr s := by
  rw [directWrite, h, hphase]
  cases rnw <;> cases ready s <;> rfl

/-! ### A direct CCC that reads -/

theorem directRead_code (h : Takes (.byte b) s) (hphase : s.tgt.phase = .ccc) :
    directRead code ready response sent s = receiveCode code .direct s := by
  rw [directRead, h, hphase]

theorem directRead_defining (h : Takes (.byte b) s) (hphase : s.tgt.phase = .direct) :
    directRead code ready response sent s = definingByte b s := by
  rw [directRead, h, hphase]

theorem directRead_addr (h : Takes (.addr a rnw) s) (hphase : s.tgt.phase = .addr) :
    directRead code ready response sent s =
      if rnw then if ready s then readAccepted response s else nackAddr s else nackAddr (detect .te5 s) := by
  rw [directRead, h, hphase]
  cases rnw <;> cases ready s <;> rfl

theorem directRead_response (h : Answered answer s) (hphase : s.tgt.phase = .directR) :
    directRead code ready response sent s = sendResponse sent s := by
  rw [directRead, h, hphase]

/-! ### RSTACT, direct: both directions (R473) -/

/-- But for its address and its response, RSTACT is a CCC that writes. -/
theorem exec_rstactD_of_write (he : e = .byte b ∨ e = .start ∨ e = .rstart ∨ e = .stop) (h : Takes e s) :
    exec .rstactD s = .next (directWrite 0x9A always rstactDirectEffect s) := by
  rw [exec, execRstactD, directWrite, h]
  rcases he with rfl | rfl | rfl | rfl <;> cases s.tgt.phase <;> rfl

theorem exec_rstactD_addr (h : Takes (.addr a rnw) s) (hphase : s.tgt.phase = .addr) :
    exec .rstactD s = .next (if rnw then readAccepted respRstact s else writeAccepted s) := by
  rw [exec, execRstactD, h, hphase]
  cases rnw <;> rfl

theorem exec_rstactD_response (h : Answered answer s) (hphase : s.tgt.phase = .directR) :
    exec .rstactD s = .next (sendResponse (notify .nRstAct) s) := by
  rw [exec, execRstactD, h, hphase]

end

/-! ## Which CCC has which shape (spec/30_encoding.md R215) -/

/-- The broadcast CCCs that collect data, with their codes. -/
def broadcastCccs : List (Instr × Byte) :=
  [(.enecB, 0x00), (.disecB, 0x01), (.entas0B, 0x02), (.entas1B, 0x03), (.entas2B, 0x04), (.entas3B, 0x05),
    (.rstdaaB, 0x06), (.setmwlB, 0x09), (.setmrlB, 0x0A), (.rstactB, 0x2A)]

/-- The direct CCCs that write, with their codes. -/
def writeCccs : List (Instr × Byte) :=
  [(.enecD, 0x80), (.disecD, 0x81), (.entas0D, 0x82), (.entas1D, 0x83), (.entas2D, 0x84), (.entas3D, 0x85),
    (.rstdaaD, 0x86), (.setdasaCcc, 0x87), (.setnewda, 0x88), (.setmwlD, 0x89), (.setmrlD, 0x8A), (.rstactD, 0x9A)]

/-- The direct CCCs that only read, with their codes. -/
def readCccs : List (Instr × Byte) :=
  [(.getmwl, 0x8B), (.getmrl, 0x8C), (.getpid, 0x8D), (.getbcr, 0x8E), (.getdcr, 0x8F), (.getstatus, 0x90),
    (.getacccr, 0x91)]

section
variable {s : State} {b : Byte} {row : Instr × Byte}

theorem exec_of_mem_broadcastCccs (hrow : row ∈ broadcastCccs) :
    ∃ effect, ∀ s, exec row.1 s = .next (broadcastCcc row.2 effect s) := by
  revert row
  simp only [broadcastCccs, List.forall_mem_cons, List.not_mem_nil, false_imp_iff, implies_true, and_true]
  exact ⟨⟨_, fun _ => rfl⟩, ⟨_, fun _ => rfl⟩, ⟨_, fun _ => rfl⟩, ⟨_, fun _ => rfl⟩, ⟨_, fun _ => rfl⟩,
    ⟨_, fun _ => rfl⟩, ⟨_, fun _ => rfl⟩, ⟨_, fun _ => rfl⟩, ⟨_, fun _ => rfl⟩, ⟨_, fun _ => rfl⟩⟩

/-- RSTACT has this shape only where it does not read. -/
theorem exec_of_mem_writeCccs (h : Takes (.byte b) s) (hrow : row ∈ writeCccs) :
    ∃ ready effect, exec row.1 s = .next (directWrite row.2 ready effect s) := by
  revert row
  simp only [writeCccs, List.forall_mem_cons, List.not_mem_nil, false_imp_iff, implies_true, and_true]
  exact ⟨⟨_, _, rfl⟩, ⟨_, _, rfl⟩, ⟨_, _, rfl⟩, ⟨_, _, rfl⟩, ⟨_, _, rfl⟩, ⟨_, _, rfl⟩, ⟨_, _, rfl⟩, ⟨_, _, rfl⟩,
    ⟨_, _, rfl⟩, ⟨_, _, rfl⟩, ⟨_, _, rfl⟩, ⟨_, _, exec_rstactD_of_write (.inl rfl) h⟩⟩

theorem exec_of_mem_readCccs (hrow : row ∈ readCccs) :
    ∃ ready response sent, ∀ s, exec row.1 s = .next (directRead row.2 ready response sent s) := by
  revert row
  simp only [readCccs, List.forall_mem_cons, List.not_mem_nil, false_imp_iff, implies_true, and_true]
  exact ⟨⟨_, _, _, fun _ => rfl⟩, ⟨_, _, _, fun _ => rfl⟩, ⟨_, _, _, fun _ => rfl⟩, ⟨_, _, _, fun _ => rfl⟩,
    ⟨_, _, _, fun _ => rfl⟩, ⟨_, _, _, fun _ => rfl⟩, ⟨_, _, _, fun _ => rfl⟩⟩

/-! ## Codes and bytes received -/

theorem exec_broadcast_code (h : Takes (.byte b) s) (hphase : s.tgt.phase = .ccc) (hrow : row ∈ broadcastCccs) :
    exec row.1 s = .next (receiveCode row.2 .cccData s) := by
  obtain ⟨effect, hexec⟩ := exec_of_mem_broadcastCccs hrow
  rw [hexec, broadcastCcc_code h hphase]

theorem exec_direct_code (h : Takes (.byte b) s) (hphase : s.tgt.phase = .ccc) (hrow : row ∈ writeCccs ++ readCccs) :
    exec row.1 s = .next (receiveCode row.2 .direct s) := by
  rcases List.mem_append.mp hrow with hrow | hrow
  · obtain ⟨ready, effect, hexec⟩ := exec_of_mem_writeCccs h hrow
    rw [hexec, directWrite_code h hphase]
  · obtain ⟨ready, response, sent, hexec⟩ := exec_of_mem_readCccs hrow
    rw [hexec, directRead_code h hphase]

theorem exec_defining (h : Takes (.byte b) s) (hphase : s.tgt.phase = .direct) (hrow : row ∈ writeCccs ++ readCccs) :
    exec row.1 s = .next (definingByte b s) := by
  rcases List.mem_append.mp hrow with hrow | hrow
  · obtain ⟨ready, effect, hexec⟩ := exec_of_mem_writeCccs h hrow
    rw [hexec, directWrite_defining h hphase]
  · obtain ⟨ready, response, sent, hexec⟩ := exec_of_mem_readCccs hrow
    rw [hexec, directRead_defining h hphase]

theorem exec_broadcast_data (h : Takes (.byte b) s) (hphase : s.tgt.phase = .cccData) (hrow : row ∈ broadcastCccs) :
    exec row.1 s = .next (collect b s) := by
  obtain ⟨effect, hexec⟩ := exec_of_mem_broadcastCccs hrow
  rw [hexec, broadcastCcc_data h hphase]

theorem exec_write_data (h : Takes (.byte b) s) (hphase : s.tgt.phase = .directW) (hrow : row ∈ writeCccs) :
    exec row.1 s = .next (collect b s) := by
  obtain ⟨ready, effect, hexec⟩ := exec_of_mem_writeCccs h hrow
  rw [hexec, directWrite_data h hphase]

/-- The direct codes are those from 0x80 up (R215). -/
theorem exec_code (h : Takes (.byte b) s) (hphase : s.tgt.phase = .ccc)
    (hrow : row ∈ broadcastCccs ++ writeCccs ++ readCccs) :
    exec row.1 s = .next (receiveCode row.2 (if row.2.toNat < 0x80 then .cccData else .direct) s) := by
  have hlow : ∀ row ∈ broadcastCccs, row.2.toNat < 0x80 := by decide
  have hhigh : ∀ row ∈ writeCccs ++ readCccs, ¬row.2.toNat < 0x80 := by decide
  rw [List.append_assoc] at hrow
  rcases List.mem_append.mp hrow with hrow | hrow
  · rw [exec_broadcast_code h hphase hrow, if_pos (hlow row hrow)]
  · rw [exec_direct_code h hphase hrow, if_neg (hhigh row hrow)]

end

/-! ## Codes that are no instruction (R475, R477) -/

section
variable {s : State} {c b : Byte}

theorem cccClass_of_undefined (h : (0x0D ≤ c.toNat ∧ c.toNat ≤ 0x11) ∨ (0x13 ≤ c.toNat ∧ c.toNat ≤ 0x1F) ∨
    (0x2E ≤ c.toNat ∧ c.toNat ≤ 0x60) ∨ (0x9E ≤ c.toNat ∧ c.toNat ≤ 0xDF) ∨ c.toNat = 0xFF) :
    cccClass c = .undefined := by
  rw [cccClass, if_neg (by omega), if_neg (by omega), if_neg (by omega)]

theorem cccClass_of_unsupported (h : (0x0B ≤ c.toNat ∧ c.toNat ≤ 0x0C) ∨ c.toNat = 0x12 ∨
    (0x28 ≤ c.toNat ∧ c.toNat ≤ 0x29) ∨ (0x2C ≤ c.toNat ∧ c.toNat ≤ 0x2D) ∨ (0x61 ≤ c.toNat ∧ c.toNat ≤ 0x7F) ∨
    (0x92 ≤ c.toNat ∧ c.toNat ≤ 0x99) ∨ (0x9B ≤ c.toNat ∧ c.toNat ≤ 0x9D) ∨ (0xE0 ≤ c.toNat ∧ c.toNat ≤ 0xFE)) :
    cccClass c = .unsupported := by
  rw [cccClass, if_neg (by omega), if_neg (by omega), if_pos (by omega)]

theorem cccOf_eq_none_of_unsupported (h : cccClass c = .unsupported) : cccOf c = none := by
  revert c
  decide

theorem decode_of_undefined (h : cccClass c = .undefined) : decode .ccc [c] = .error .undefinedCcc := by
  rw [decode, decodeCcc, cccOf_eq_none_of_undefined h, h]
  rfl

theorem decode_of_unsupported (h : cccClass c = .unsupported) : decode .ccc [c] = .error .unsupportedCcc := by
  rw [decode, decodeCcc, cccOf_eq_none_of_unsupported h, h]
  rfl

theorem targetEvent_undefined (hphase : s.tgt.phase = .ccc) (h : cccClass c = .undefined) :
    targetEvent (.byte c) s = .next (undefinedCode c s) := by
  rw [targetEvent, byteTurn, hphase]
  simp only [codeByte, decode_of_undefined h]

theorem targetEvent_unsupported (hphase : s.tgt.phase = .ccc) (h : cccClass c = .unsupported) :
    targetEvent (.byte c) s = .next (unsupportedCode c s) := by
  rw [targetEvent, byteTurn, hphase]
  simp only [codeByte, decode_of_unsupported h]

/-- An undefined code: TE1, and the frame is ignored up to STOP. -/
theorem undefinedCode_broadcast (h : c.toNat < 0x80) :
    undefinedCode c s = { receiveCode c .ignore (detect .te1 s) with tgt.ignstop := true } := by
  rw [undefinedCode, if_neg (Nat.not_le.mpr h)]

theorem undefinedCode_direct (h : 0x80 ≤ c.toNat) :
    undefinedCode c s = { receiveCode c .direct (detect .te1 s) with tgt.ignstop := true } := by
  rw [undefinedCode, if_pos h]

theorem unsupportedCode_broadcast (h : c.toNat < 0x80) : unsupportedCode c s = ignore false (receiveCode c .ignore s) :=
  if_neg (Nat.not_le.mpr h)

theorem unsupportedCode_direct (h : 0x80 ≤ c.toNat) : unsupportedCode c s = receiveCode c .direct s := if_pos h

/-! ## Bytes that no instruction takes -/

theorem targetEvent_direct_ignored (hphase : s.tgt.phase = .direct) (h : ignoring s = true) :
    targetEvent (.byte b) s = .next s := by
  rw [targetEvent, byteTurn, hphase]
  exact if_pos h

/-- The defining byte of an unsupported direct CCC is kept too (R463). -/
theorem targetEvent_direct_unknown {e : DecodeError} (hphase : s.tgt.phase = .direct) (h : ¬ignoring s = true)
    (he : decode .ccc [s.tgt.ccccur] = .error e) : targetEvent (.byte b) s = .next (definingByte b s) := by
  rw [targetEvent, byteTurn, hphase]
  exact (if_neg h).trans (cccStep_of_error he)

/-- A byte outside every message (R429). -/
theorem targetEvent_stray (hphase : s.tgt.phase ∈ [TgtPhase.idle, .addr, .privR, .directR]) :
    targetEvent (.byte b) s = .next (toIgnore (detect .te5 s)) := by
  simp only [List.mem_cons, List.not_mem_nil, or_false] at hphase
  rcases hphase with hphase | hphase | hphase | hphase <;> rw [targetEvent, byteTurn, hphase]

theorem targetEvent_byte_ignored (hphase : s.tgt.phase = .ignore ∨ s.tgt.phase = .daa) :
    targetEvent (.byte b) s = .next s := by
  rcases hphase with hphase | hphase <;> rw [targetEvent, byteTurn, hphase]

end

/-- Settles O52: a supported code is `exec_code`, any other code is told by its class, a byte in T_DIRECT by `ignoring`. -/
theorem cccCodesReceived : Obligations.CccCodesReceived := by
  intro b s h broadcast writes reads bad received within cur curUndefined undefinedB undefinedD unsupportedB unsupportedD
    collected defining
  refine ⟨fun hphase => ⟨fun row => exec_code h hphase, fun hb => ?undefinedB, fun hb => ?undefinedD,
      fun hb => ?unsupportedB, fun hb => ?unsupportedD⟩,
    fun hphase row => exec_broadcast_data h hphase, fun hphase row => exec_write_data h hphase,
    fun hphase => ⟨fun row => exec_defining h hphase, fun hcur hstop => ?ignored, fun e he hcur => ?unknown⟩,
    targetEvent_stray, targetEvent_byte_ignored⟩
  case undefinedB =>
    have hclass : cccClass b = .undefined := cccClass_of_undefined (by omega)
    rw [targetEvent_undefined hphase hclass, undefinedCode_broadcast (by omega)]
    rfl
  case undefinedD =>
    have hhigh : (0x9E ≤ b.toNat ∧ b.toNat ≤ 0xDF) ∨ b.toNat = 0xFF := hb.imp_right (congrArg BitVec.toNat)
    have hclass : cccClass b = .undefined := cccClass_of_undefined (by omega)
    rw [targetEvent_undefined hphase hclass, undefinedCode_direct (by omega)]
    rfl
  case unsupportedB =>
    have hlow : (0x0B ≤ b.toNat ∧ b.toNat ≤ 0x0C) ∨ b.toNat = 0x12 ∨ (0x28 ≤ b.toNat ∧ b.toNat ≤ 0x29) ∨
        (0x2C ≤ b.toNat ∧ b.toNat ≤ 0x2D) ∨ (0x61 ≤ b.toNat ∧ b.toNat ≤ 0x7F) :=
      hb.imp_right (Or.imp_left (congrArg BitVec.toNat))
    have hclass : cccClass b = .unsupported := cccClass_of_unsupported (by omega)
    rw [targetEvent_unsupported hphase hclass, unsupportedCode_broadcast (by omega)]
    rfl
  case unsupportedD =>
    have hclass : cccClass b = .unsupported := cccClass_of_unsupported (by omega)
    rw [targetEvent_unsupported hphase hclass, unsupportedCode_direct (by omega)]
    rfl
  case ignored =>
    refine targetEvent_direct_ignored hphase (ignoring_iff.mpr ⟨hstop, .inr ⟨hphase, ?_⟩⟩)
    exact (cccClass_eq_undefined_iff (by omega)).mpr hcur
  case unknown =>
    refine targetEvent_direct_unknown hphase (fun hign => ?_) he
    obtain ⟨hstop, hignore | ⟨-, hundefined⟩⟩ := ignoring_iff.mp hign
    · exact absurd (hphase.symm.trans hignore) (by decide)
    · rcases hcur with hno | ⟨hdirect, hdefined⟩
      · exact Bool.false_ne_true (hno.symm.trans hstop)
      · exact hdefined ((cccClass_eq_undefined_iff hdirect).mp hundefined)

end Sys2Proof.Machine
end

section
/-! SUPPORT. The effects of the CCCs that write (spec/45_ccc_decoder.md R461, R464–R473), and the frame event that ends their
data. -/

namespace Sys2Proof.Machine

/-! ## Notifications and hot-joins -/

section
variable (f : Flag) (s : State)

theorem notify_tgt : (notify f s).tgt = s.tgt := by
  obtain ⟨_, _, h⟩ := exists_notify_eq f s
  rw [h]

theorem notify_tst : (notify f s).tst = s.tst := by
  obtain ⟨_, _, h⟩ := exists_notify_eq f s
  rw [h]

theorem notify_cfg : (notify f s).cfg = s.cfg := by
  obtain ⟨_, _, h⟩ := exists_notify_eq f s
  rw [h]

end

/-- The hot-join that waits for an address ends with the one just notified (spec/44_target.md R426). -/
theorem hotJoinAssigned_notify (f : Flag) (s : State) : hotJoinAssigned (notify f s) =
    if s.tgt.trq = .hjWaitDaa then endedWith 9 0 (s.cfg.da.setWidth 16) { notify f s with tgt.trq := .none }
    else notify f s := by
  refine if_congr (by rw [notify_tgt]) ?_ rfl
  rw [← notify_cfg f s]
  rfl

/-- The hot-join that waits for an address ends REFUSED once it is disabled (spec/44_target.md R426). -/
theorem hotJoinDisabled_notify (f : Flag) (s : State) : hotJoinDisabled (notify f s) =
    if s.tgt.trq = .hjWaitDaa ∧ s.tst.enhj = false then endedWith 9 5 0 { notify f s with tgt.trq := .none }
    else notify f s :=
  if_congr (by rw [notify_tgt, notify_tst]) rfl rfl

/-! ## The effects -/

section
variable (s : State)

/-- The grants after ENEC (R464). -/
def eventsEnabled (b : Byte) (s : State) : State :=
  { s with
    tst.enint := s.tst.enint || b.getLsbD 0
    tst.encr := s.tst.encr || b.getLsbD 1
    tst.enhj := s.tst.enhj || b.getLsbD 3 }

/-- The grants after DISEC (R465). -/
def eventsDisabled (b : Byte) (s : State) : State :=
  { s with
    tst.enint := s.tst.enint && !b.getLsbD 0
    tst.encr := s.tst.encr && !b.getLsbD 1
    tst.enhj := s.tst.enhj && !b.getLsbD 3 }

theorem enecEffect_eq : enecEffect s =
    if s.tgt.cccbuf.length = 1 then notify .nEvent (eventsEnabled (s.tgt.cccbuf.headD 0) s) else detect .te5 s := rfl

theorem disecEffect_eq : disecEffect s =
    if s.tgt.cccbuf.length = 1 then hotJoinDisabled (notify .nEvent (eventsDisabled (s.tgt.cccbuf.headD 0) s))
    else detect .te5 s := rfl

theorem entasEffect_eq (k : BitVec 2) : entasEffect k s =
    if s.tgt.cccbuf.length = 0 then notify .nActState { s with tst.act := k } else detect .te5 s := rfl

theorem setmwlEffect_eq : setmwlEffect s =
    if s.tgt.cccbuf.length = 2 then
      notify .nMaxLen { s with cfg.mwl := s.tgt.cccbuf.headD 0 ++ (s.tgt.cccbuf.drop 1).headD 0 }
    else detect .te5 s := rfl

theorem setmrlEffect_eq : setmrlEffect s =
    if s.tgt.cccbuf.length = 2 ∨ s.tgt.cccbuf.length = 3 then
      notify .nMaxLen { s with cfg.mrl := s.tgt.cccbuf.headD 0 ++ (s.tgt.cccbuf.drop 1).headD 0 }
    else detect .te5 s := rfl

theorem rstactEffect_eq : rstactEffect s =
    if s.tgt.cccbuf.length = 1 then notify .nRstAct { s with tst.rstact := s.tgt.cccbuf.headD 0 } else detect .te5 s := rfl

/-- Without data RSTACT needs its defining byte (R473). -/
theorem rstactDirectEffect_eq : rstactDirectEffect s =
    if s.tgt.cccbuf.length = 0 ∧ s.tgt.defv = true then notify .nRstAct { s with tst.rstact := s.tgt.defbyte }
    else detect .te5 s := (ite_and ..).symm

theorem rstdaaEffect_eq : rstdaaEffect s =
    if s.tgt.cccbuf = [] then notify .nDaUpd { s with cfg.da := 0, cfg.dav := false } else detect .te5 s :=
  if_congr List.length_eq_zero_iff rfl rfl

theorem setdasaEffect_eq : setdasaEffect s =
    if s.tgt.cccbuf.length = 1 then
      if validDa (newDa (s.tgt.cccbuf.headD 0)) = true then
        hotJoinAssigned (notify .nDaUpd { s with cfg.da := newDa (s.tgt.cccbuf.headD 0), cfg.dav := true })
      else latchFlag .dynaddr s
    else detect .te5 s := rfl

theorem setnewdaEffect_eq : setnewdaEffect s =
    if s.tgt.cccbuf.length = 1 then
      if validDa (newDa (s.tgt.cccbuf.headD 0)) = true then
        notify .nDaUpd { s with cfg.da := newDa (s.tgt.cccbuf.headD 0) }
      else latchFlag .dynaddr s
    else detect .te5 s := rfl

end

/-! ## The ends of the data -/

section
variable {s t : State} {e : PhyEvent} {i : Instr} {code : Byte} {effect : State → State} {ready : State → Bool}

/-- A broadcast CCC is over with its data (R461). -/
theorem exec_broadcast_end (hi : exec i s = .next (broadcastCcc code effect s)) (ht : effect s = t)
    (he : e = .start ∨ e = .rstart ∨ e = .stop) (h : Takes e s) (hphase : s.tgt.phase = .cccData) :
    exec i s = .next (frameEvent e { t with tgt.ccccur := 0 }) := by
  rw [hi, broadcastCcc_end he h hphase, ← ht]
  rfl

/-- A direct CCC stays in force (R461). -/
theorem exec_write_end (hi : exec i s = .next (directWrite code ready effect s)) (ht : effect s = t)
    (he : e = .start ∨ e = .rstart ∨ e = .stop) (h : Takes e s) (hphase : s.tgt.phase = .directW) :
    exec i s = .next (frameEvent e t) := by
  rw [hi, directWrite_end he h hphase, ← ht]
  rfl

end

/-- Settles O53: ENEC and DISEC have one effect each, in both shapes. -/
theorem eventCccs : Obligations.EventCccs := by
  intro e s he h b enabled cleared disabled en dis
  have hen : enecEffect s = en := enecEffect_eq s
  have hdis : disecEffect s = dis := by
    rw [disecEffect_eq, hotJoinDisabled_notify]
    rfl
  exact ⟨fun hphase => ⟨exec_broadcast_end rfl hen he h hphase, exec_broadcast_end rfl hdis he h hphase⟩,
    fun hphase => ⟨exec_write_end rfl hen he h hphase, exec_write_end rfl hdis he h hphase⟩⟩

/-- Settles O54: each of the CCCs has its effect lemma, and the direct RSTACT one of its own. -/
theorem registerCccs : Obligations.RegisterCccs := by
  intro e s he h n len bad as mwl mrl actB actD
  have has : ∀ k, entasEffect k s = as k := entasEffect_eq s
  have hmwl : setmwlEffect s = mwl := setmwlEffect_eq s
  have hmrl : setmrlEffect s = mrl := setmrlEffect_eq s
  refine ⟨fun hphase => ?broadcast, fun hphase => ?direct⟩
  case broadcast =>
    simp only [List.forall_mem_cons, List.not_mem_nil, false_imp_iff, implies_true, and_true]
    exact ⟨exec_broadcast_end rfl (has 0) he h hphase, exec_broadcast_end rfl (has 1) he h hphase,
      exec_broadcast_end rfl (has 2) he h hphase, exec_broadcast_end rfl (has 3) he h hphase,
      exec_broadcast_end rfl hmwl he h hphase, exec_broadcast_end rfl hmrl he h hphase,
      exec_broadcast_end rfl (rstactEffect_eq s) he h hphase⟩
  case direct =>
    have hrstact : exec .rstactD s = .next (directWrite 0x9A always rstactDirectEffect s) :=
      exec_rstactD_of_write (b := 0) (.inr he) h
    simp only [List.forall_mem_cons, List.not_mem_nil, false_imp_iff, implies_true, and_true]
    exact ⟨exec_write_end rfl (has 0) he h hphase, exec_write_end rfl (has 1) he h hphase,
      exec_write_end rfl (has 2) he h hphase, exec_write_end rfl (has 3) he h hphase,
      exec_write_end rfl hmwl he h hphase, exec_write_end rfl hmrl he h hphase,
      exec_write_end hrstact (rstactDirectEffect_eq s) he h hphase⟩

/-- Settles O55: the three effects, of which SETDASA's completes a hot-join that waits (`hotJoinAssigned_notify`). -/
theorem addressCccs : Obligations.AddressCccs := by
  intro e s he h na bad dropped taken joined one
  have hdropped : rstdaaEffect s = dropped := rstdaaEffect_eq s
  have hjoined : setdasaEffect s = one joined := by
    rw [setdasaEffect_eq, hotJoinAssigned_notify]
    rfl
  have hnew : setnewdaEffect s = one (notify .nDaUpd { s with cfg.da := na }) := setnewdaEffect_eq s
  exact ⟨exec_broadcast_end rfl hdropped he h, fun hphase =>
    ⟨exec_write_end rfl hdropped he h hphase, exec_write_end rfl hjoined he h hphase, exec_write_end rfl hnew he h hphase⟩⟩

end Sys2Proof.Machine
end

section
/-! SUPPORT. Direct CCCs addressed to this target, and the response of those that read (spec/45_ccc_decoder.md R462, R469,
R473, R479–R486). -/

namespace Sys2Proof.Machine

/-! ## The GETACCCR response (R486) -/

section
variable (a : Addr7)

theorem getLsbD_addrByte (low : Bool) (i : Nat) :
    (addrByte a low).getLsbD i = if i < 1 then (bit low).getLsbD i else a.getLsbD (i - 1) := BitVec.getLsbD_append

/-- Bit 0 of the byte, which is 0, adds no 1 bit to those of the address. -/
theorem countP_addrByte_false :
    (List.range 8).countP (fun i => (addrByte a false).getLsbD i) = (List.range 7).countP (fun i => a.getLsbD i) := by
  have hlow : (addrByte a false).getLsbD 0 = false := getLsbD_addrByte a false 0
  have hhigh : ∀ i, (addrByte a false).getLsbD (i + 1) = a.getLsbD i := fun i => by simp [getLsbD_addrByte]
  rw [List.range_succ_eq_map, List.countP_cons, List.countP_map, hlow]
  simp only [Function.comp_def, Nat.succ_eq_add_one, hhigh, Bool.false_eq_true, if_false, Nat.add_zero]

theorem oddParity_addrByte_iff :
    oddParity (addrByte a false) = true ↔ (List.range 7).countP (fun i => a.getLsbD i) % 2 = 1 := by
  rw [oddParity_iff, countP_addrByte_false]

theorem addrByte_true : addrByte a true = (a ++ 0#1 : Byte) ||| 1 := by
  revert a
  decide

/-- Bit 0 makes the parity odd. -/
theorem addrByte_oddParity : addrByte a (!oddParity (addrByte a false)) =
    if (List.range 7).countP (fun i => a.getLsbD i) % 2 = 1 then (a ++ 0#1 : Byte) else (a ++ 0#1 : Byte) ||| 1 := by
  split_ifs with h
  · rw [(oddParity_addrByte_iff a).mpr h]
    rfl
  · rw [Bool.eq_false_of_not_eq_true (mt (oddParity_addrByte_iff a).mp h)]
    exact addrByte_true a

end

theorem acccrReady_iff (s : State) : acccrReady s = true ↔ bitField s.cfg.bcr 6 2 = 1 ∧ s.cfg.dav = true := by
  simp [acccrReady, controllerCapable]

/-! ## The address -/

section
variable {s : State} {a : Addr7} {rnw : Bool} {i : Instr} {code : Byte} {effect sent : State → State}
  {ready : State → Bool} {response : State → List Byte} {p : Prop} {bytes : List Byte}

/-- The address of a CCC that reads, in both directions and whether it is ready or not. -/
theorem exec_read_addr (hi : exec i s = .next (directRead code ready response sent s)) (hready : ready s = true ↔ p)
    (hbytes : response s = bytes) (h : Takes (.addr a rnw) s) (hphase : s.tgt.phase = .addr) :
    (rnw = false → exec i s = .next (nackAddr (detect .te5 s))) ∧
      (rnw = true → ¬p → exec i s = .next (nackAddr s)) ∧
      (rnw = true → p → exec i s = .next (ackAddr .directR { s with tgt.cccbuf := bytes, tgt.rspk := 0 })) := by
  rw [hi, directRead_addr h hphase]
  refine ⟨fun hrnw => ?write, fun hrnw hp => ?unready, fun hrnw hp => ?read⟩
  case write => rw [hrnw, if_neg Bool.false_ne_true]
  case unready => rw [if_pos hrnw, if_neg (mt hready.mp hp)]
  case read => rw [if_pos hrnw, if_pos (hready.mpr hp), readAccepted, hbytes]

end

/-- Settles O56: an address of each shape is `directWrite_addr` or `directRead_addr`; the one response that is computed is
`addrByte_oddParity`. -/
theorem directCccAddressed : Obligations.DirectCccAddressed := by
  intro a rnw s h hphase nacked acked pid da capable odd third
  have halways : always s = true ↔ True := iff_true_intro rfl
  refine ⟨?writes, ?reads, ?rstact⟩
  case writes =>
    simp only [List.forall_mem_cons, List.not_mem_nil, false_imp_iff, implies_true, and_true]
    exact ⟨congrArg _ (directWrite_addr h hphase), congrArg _ (directWrite_addr h hphase),
      congrArg _ (directWrite_addr h hphase), congrArg _ (directWrite_addr h hphase),
      congrArg _ (directWrite_addr h hphase), congrArg _ (directWrite_addr h hphase),
      congrArg _ (directWrite_addr h hphase),
      congrArg _ (directWrite_addr (ready := fun s => !s.cfg.dav) h hphase),
      congrArg _ (directWrite_addr h hphase), congrArg _ (directWrite_addr h hphase),
      congrArg _ (directWrite_addr h hphase)⟩
  case reads =>
    have hacccr : respAcccr s = [if odd then da else da ||| 1] := congrArg (fun b => [b]) (addrByte_oddParity s.cfg.da)
    simp only [List.forall_mem_cons, List.not_mem_nil, false_imp_iff, implies_true, and_true]
    exact ⟨exec_read_addr rfl halways rfl h hphase, exec_read_addr rfl halways rfl h hphase,
      exec_read_addr rfl halways rfl h hphase, exec_read_addr rfl halways rfl h hphase,
      exec_read_addr rfl halways rfl h hphase, exec_read_addr rfl halways rfl h hphase,
      exec_read_addr rfl (acccrReady_iff s) hacccr h hphase⟩
  case rstact => exact exec_rstactD_addr h hphase

/-! ## The response (R479) -/

section
variable {s : State} {i : Instr} {answer : PhyAnswer} {sent : State → State}

/-- The byte RSPK is the last of the response. -/
def lastResponse (s : State) : Bool := decide (s.tgt.rspk.toNat + 1 = s.tgt.cccbuf.length)

/-- Byte RSPK of the response is driven. -/
def responseDriven (s : State) : State := driven (.tbyte (s.tgt.cccbuf.getD s.tgt.rspk.toNat 0) (lastResponse s)) s

/-- What the answer to a response byte does. -/
def responseAnswered (sent : State → State) (last : Bool) (answer : PhyAnswer) (t : State) : State :=
  match answer with
  | .ok => if last then sent (ignore false { t with tgt.rspk := t.tgt.rspk + 1 }) else { t with tgt.rspk := t.tgt.rspk + 1 }
  | .stopped => ignore false t
  | .err k => targetError k t
  | _ => t

theorem sendResponse_eq (sent : State → State) (s : State) : sendResponse sent s =
    phy (.tbyte (s.tgt.cccbuf.getD s.tgt.rspk.toNat 0) (lastResponse s)) (responseAnswered sent (lastResponse s)) s := by
  simp only [sendResponse, beq_eq_decide]
  rfl

theorem sendResponse_answered (h : Answered answer s) (ha : answer = .ok ∨ answer = .stopped ∨
    ∃ k ∈ [ErrCode.te6, .stall], answer = .err k) :
    sendResponse sent s = responseAnswered sent (lastResponse s) answer (responseDriven s) := by
  rw [sendResponse_eq]
  refine phy_answered h ?_
  rcases ha with rfl | rfl | ⟨k, hk, rfl⟩
  · rfl
  · rfl
  · exact (targetKind_iff k).mpr hk

/-- A response byte is taken, or ends the read early, or fails. -/
theorem exec_response (hi : ∀ answer, Answered answer s → exec i s = .next (sendResponse sent s)) :
    let t := { responseDriven s with tgt.rspk := s.tgt.rspk + 1 }
    (Answered .ok s → exec i s = .next (if lastResponse s then sent (ignore false t) else t)) ∧
      (Answered .stopped s → exec i s = .next (ignore false (responseDriven s))) ∧
      ∀ k ∈ ([.te6, .stall] : List ErrCode), Answered (.err k) s → exec i s = .next (targetError k (responseDriven s)) := by
  refine ⟨fun h => ?_, fun h => ?_, fun k hk h => ?_⟩
  · exact (hi _ h).trans (congrArg _ (sendResponse_answered h (.inl rfl)))
  · exact (hi _ h).trans (congrArg _ (sendResponse_answered h (.inr (.inl rfl))))
  · exact (hi _ h).trans (congrArg _ (sendResponse_answered h (.inr (.inr ⟨k, hk, rfl⟩))))

theorem exec_read_response {code : Byte} {ready : State → Bool} {response : State → List Byte}
    (hphase : s.tgt.phase = .directR) (hi : exec i s = .next (directRead code ready response sent s)) :
    ∀ answer, Answered answer s → exec i s = .next (sendResponse sent s) := fun _ h => by
  rw [hi, directRead_response h hphase]

end

/-- Settles O57: every response byte is `exec_response`; the CCCs differ in what follows the last. -/
theorem getResponsesSent : Obligations.GetResponsesSent := by
  intro s hphase b last d t u sent row hrow
  have hshape : ∃ after, (∀ answer, Answered answer s → exec row.1 s = .next (sendResponse after s)) ∧ after u = row.2 := by
    revert row
    simp only [List.forall_mem_cons, List.not_mem_nil, false_imp_iff, implies_true, and_true]
    exact ⟨⟨_, exec_read_response hphase rfl, rfl⟩, ⟨_, exec_read_response hphase rfl, rfl⟩,
      ⟨_, exec_read_response hphase rfl, rfl⟩, ⟨_, exec_read_response hphase rfl, rfl⟩,
      ⟨_, exec_read_response hphase rfl, rfl⟩, ⟨_, exec_read_response hphase rfl, rfl⟩,
      ⟨_, exec_read_response hphase rfl, rfl⟩, ⟨_, fun _ h => exec_rstactD_response h hphase, rfl⟩⟩
  obtain ⟨after, hexec, hafter⟩ := hshape
  rw [← hafter]
  exact exec_response hexec

end Sys2Proof.Machine
end

section
/-! SUPPORT. The list CCCs (spec/45_ccc_decoder.md R478), ENTDAA (R468) and HDR entry (R476). -/

namespace Sys2Proof.Machine

/-! ## DEFTGTS and DEFGRPA -/

section
variable {s : State} {b code : Byte} {e : PhyEvent}

theorem listCcc_code (h : Takes (.byte b) s) (hphase : s.tgt.phase = .ccc) : listCcc code s = listCode code s := by
  rw [listCcc, h, hphase]

theorem listCcc_data (h : Takes (.byte b) s) (hphase : s.tgt.phase = .cccData) : listCcc code s = listByte b s := by
  rw [listCcc, h, hphase]

theorem listCcc_end (he : e = .start ∨ e = .rstart ∨ e = .stop) (h : Takes e s) (hphase : s.tgt.phase = .cccData) :
    listCcc code s = endData true id e s := by
  rcases he with rfl | rfl | rfl <;> rw [listCcc, h, hphase]

/-- A byte is stored at NBUFPTR, which moves on (R478). -/
def listStored (b : Byte) (s : State) : State :=
  { s with
    mem := Memory.write s.mem (byteAt s s.snap.nbufptr 0) b
    snap.nbufptr := byteAt s s.snap.nbufptr 1
    snap.nbuflen := s.snap.nbuflen - 1 }

/-- A byte with room in the notification buffer faults, or is stored. -/
theorem listByte_of_room (hnotifies : s.rep.noten.getLsbD 26 = true) (hroom : s.snap.nbuflen ≠ 0) :
    listByte b s = if writable s (byteAt s s.snap.nbufptr 0) = false then latchFlag .dma s else listStored b s := by
  rw [listByte, if_neg (by simpa [notifies, flagIndex] using hnotifies), if_neg hroom, memWrite_one]
  split_ifs <;> rfl

theorem listByte_of_full (hnotifies : s.rep.noten.getLsbD 26 = true) (hfull : s.snap.nbuflen = 0) :
    listByte b s = if s.work.listOvr then s else latchFlag .dovr { s with work.listOvr := true } := by
  rw [listByte, if_neg (by simpa [notifies, flagIndex] using hnotifies), if_pos hfull]

theorem listByte_of_disabled (hnotifies : s.rep.noten.getLsbD 26 = false) : listByte b s = s :=
  if_pos (by simpa [notifies, flagIndex] using hnotifies)

end

/-- Settles O58: a data byte is discarded, has no room, or is `listByte_of_room`. -/
theorem listCccs : Obligations.ListCccs := by
  intro b s row hrow
  have hexec : ∀ s, exec row.1 s = .next (listCcc row.2 s) := by
    revert row
    simp only [List.forall_mem_cons, List.not_mem_nil, false_imp_iff, implies_true, and_true]
    exact ⟨fun _ => rfl, fun _ => rfl⟩
  refine ⟨fun hphase h => ?code, fun hphase h => ?data, fun hphase e he h => ?ends⟩
  case code =>
    rw [hexec, listCcc_code h hphase]
    rfl
  case data =>
    rw [hexec, listCcc_data h hphase]
    split_ifs with hnotifies hfull hovr hfault
    · rw [listByte_of_disabled hnotifies]
    · rw [listByte_of_full (Bool.eq_true_of_not_eq_false hnotifies) hfull, if_pos hovr]
    · rw [listByte_of_full (Bool.eq_true_of_not_eq_false hnotifies) hfull, if_neg hovr]
    · rw [listByte_of_room (Bool.eq_true_of_not_eq_false hnotifies) hfull, if_pos hfault]
    · rw [listByte_of_room (Bool.eq_true_of_not_eq_false hnotifies) hfull, if_neg hfault]
      rfl
  case ends =>
    rw [hexec, listCcc_end he h hphase]
    rfl

/-! ## ENTDAA -/

section
variable {s : State} {b : Byte} {a : Addr7}

theorem exec_entdaa_code (h : Takes (.byte b) s) (hphase : s.tgt.phase = .ccc) : exec .entdaa s = .next (entdaaCode s) := by
  rw [exec, execEntdaa, h, hphase]

theorem exec_entdaa_offer (h : Takes .daaSr s) (hphase : s.tgt.phase = .daa) :
    exec .entdaa s = .next (drive (.offer (ownPayload s)) s) := by
  rw [exec, execEntdaa, h, hphase]

theorem exec_entdaa_address (h : Takes (.da a) s) (hphase : s.tgt.phase = .daa) :
    exec .entdaa s = .next (entdaaAddress a s) := by
  rw [exec, execEntdaa, h, hphase]

/-- The address is the target's own, notified (R468). -/
def ownAddressTaken (a : Addr7) (s : State) : State := notify .nDaUpd { s with cfg.da := a, cfg.dav := true }

theorem entdaaAddress_of_invalid (h : validDa a = false) : entdaaAddress a s = latchFlag .dynaddr s :=
  if_neg (ne_true_of_eq_false h)

theorem entdaaAddress_of_valid (h : validDa a = true) : entdaaAddress a s = ignore true
    (if s.tgt.trq = .hjWaitDaa then endedWith 9 0 (a.setWidth 16) { ownAddressTaken a s with tgt.trq := .none }
      else ownAddressTaken a s) :=
  (if_pos h).trans (congrArg (ignore true) (hotJoinAssigned_notify ..))

end

/-! ## HDR entry -/

section
variable {s : State} {b : Byte} {h : BitVec 3}

theorem exec_enthdr_code (hbyte : Takes (.byte b) s) (hphase : s.tgt.phase = .ccc) :
    exec (.enthdr h) s = .next (ignore true (receiveCode (0x20#8 ||| h.setWidth 8) .ignore s)) := by
  rw [exec, execEnthdr, hbyte, hphase]

theorem enthdr_code (h : BitVec 3) : 0x20#8 ||| h.setWidth 8 = 0x20 + h.setWidth 8 := by
  revert h
  decide

theorem inHdr_of_enthdr (hphase : s.tgt.phase = .ignore) (hstop : s.tgt.ignstop = true)
    (hcur : s.tgt.ccccur = 0x20 + h.setWidth 8) : inHdr s = true := by
  have hcode : s.tgt.ccccur.toNat = 0x20 + h.toNat := by
    rw [hcur]
    bv_omega
  exact inHdr_iff.mpr ⟨hphase, hstop, by omega, by omega⟩

/-- After HDR entry every event but STOP is ignored, and an address is answered NACK (R217, R476). -/
theorem targetEvent_inHdr (a : Addr7) (k : ErrCode) (hhdr : inHdr s = true) :
    ∀ e ∈ ([.start, .rstart, .byte b, .daaSr, .da a, .resetPattern, .wakeup, .err k] : List PhyEvent),
      targetEvent e s = .next s := by
  obtain ⟨hphase, hstop, -⟩ := inHdr_iff.mp hhdr
  have hign : ignoring s = true := ignoring_iff.mpr ⟨hstop, .inl hphase⟩
  have hdaa : s.tgt.phase ≠ .daa := by
    rw [hphase]
    decide
  have herr : ¬(eventKind k && !inHdr s) = true := by simp [hhdr]
  simp only [List.forall_mem_cons, List.not_mem_nil, false_imp_iff, implies_true, and_true]
  exact ⟨targetEvent_ignored (by simp) hign, targetEvent_ignored (by simp) hign, targetEvent_byte_ignored (.inl hphase),
    if_neg hdaa, if_neg hdaa, congrArg _ (if_pos hhdr), congrArg _ (if_pos hhdr), congrArg _ (if_neg herr)⟩

end

/-- Settles O59: ENTDAA by its three events; HDR entry leaves the target in `inHdr`, where `targetEvent_inHdr` holds. -/
theorem entdaaEnthdr : Obligations.EntdaaEnthdr := by
  intro b a w h k s
  refine ⟨fun hphase hbyte => ⟨?code, ?hdrCode⟩, fun hphase hstop hcur => ⟨?ignored, ?address, ?stop⟩,
    fun hphase hsr => exec_entdaa_offer hsr hphase, fun hphase hda => ?assigned⟩
  case code => exact exec_entdaa_code hbyte hphase
  case hdrCode =>
    rw [exec_enthdr_code hbyte hphase, enthdr_code]
    rfl
  case ignored => exact targetEvent_inHdr a k (inHdr_of_enthdr hphase hstop hcur)
  case address => exact targetEvent_addr_outside (by simp [hphase])
  case stop => exact targetEvent_frame_alone (by simp) (.inl rfl) (by simp [hphase])
  case assigned =>
    intro taken
    rw [exec_entdaa_address hda hphase]
    split_ifs with hvalid hwaits
    · rw [entdaaAddress_of_invalid hvalid]
    · rw [entdaaAddress_of_valid (Bool.eq_true_of_not_eq_false hvalid), if_pos hwaits]
      rfl
    · rw [entdaaAddress_of_valid (Bool.eq_true_of_not_eq_false hvalid), if_neg hwaits]
      rfl

end Sys2Proof.Machine
end

section
/-! SUPPORT. The controller's handling of target requests (spec/46_events.md R521–R527): the answer to each kind of request,
the payload of an in-band interrupt, and the STOP. -/

namespace Sys2Proof.Machine

/-! ## The answer (R522, R526, R527) -/

/-- The request is answered REQACK(0) and recorded nowhere. -/
def requestRefused (s : State) : State := { driven (.reqAck false) s with work.request := .stop .none }

/-- A lookup that finds nothing, or an entry without the permission asked for, gives no entry. -/
theorem filter_eq_none_of_refused {α : Type} {o : Option α} {allowed : α → Bool}
    (h : o = none ∨ ∃ i, o = some i ∧ allowed i = false) : o.filter allowed = none := by
  rcases h with rfl | ⟨i, rfl, hi⟩
  · rfl
  · exact Option.filter_some_neg hi

/-- The payload follows where the entry says so, and there is room for some (R522). -/
theorem ibiAfterAck_eq (i : Fin 4) (s : State) : ibiAfterAck i s =
    { s with
      work.request := if s.cfg.bdt[i].ibiden = true ∧ 0 < s.env.params.ibiMax then .data i 0 else .stop (.ibi i) } := by
  have hpayload : (s.cfg.bdt[i].ibiden && decide (0 < s.env.params.ibiMax)) = true ↔
      s.cfg.bdt[i].ibiden = true ∧ 0 < s.env.params.ibiMax := by simp
  simp only [ibiAfterAck, hpayload]
  split_ifs <;> rfl

section
variable {s : State} {a : Addr7} {i : Fin 4} (hok : Answered .ok s)
include hok

theorem hotJoinAck_ok : hotJoinAck s =
    if s.cfg.hjack then
      { driven (.reqAck true) s with
        ibi := { addr := 0x02, rnw := false, cnt := 0, kind := 2, data := s.ibi.data }
        work.request := .stop .hj }
    else requestRefused s :=
  if_congr Iff.rfl (phy_answered hok rfl) (phy_answered hok rfl)

theorem ibiAck_refused (h : bdtFind s a = none ∨ ∃ i, bdtFind s a = some i ∧ s.cfg.bdt[i].ibiack = false) :
    ibiAck a s = requestRefused s := by
  rw [ibiAck, filter_eq_none_of_refused h]
  exact phy_answered hok rfl

theorem ibiAck_accepted (hfind : bdtFind s a = some i) (hack : s.cfg.bdt[i].ibiack = true) : ibiAck a s =
    { driven (.reqAck true) s with
      ibi := { addr := a, rnw := true, cnt := 0, kind := 0, data := 0 }
      work.request := if s.cfg.bdt[i].ibiden = true ∧ 0 < s.env.params.ibiMax then .data i 0 else .stop (.ibi i) } := by
  have hentry : (bdtFind s a).filter (fun i => s.cfg.bdt[i].ibiack) = some i :=
    Option.filter_eq_some_iff.mpr ⟨hfind, hack⟩
  rw [ibiAck, hentry]
  exact (phy_answered hok rfl).trans (ibiAfterAck_eq ..)

theorem roleAck_refused (h : bdtFind s a = none ∨ ∃ i, bdtFind s a = some i ∧ s.cfg.bdt[i].crack = false) :
    roleAck a s = requestRefused s := by
  rw [roleAck, filter_eq_none_of_refused h]
  exact phy_answered hok rfl

theorem roleAck_accepted (hfind : bdtFind s a = some i) (hack : s.cfg.bdt[i].crack = true) : roleAck a s =
    { driven (.reqAck true) s with
      ibi := { addr := a, rnw := false, cnt := 0, kind := 1, data := s.ibi.data }
      work.request := .stop .crreq } := by
  have hentry : (bdtFind s a).filter (fun i => s.cfg.bdt[i].crack) = some i :=
    Option.filter_eq_some_iff.mpr ⟨hfind, hack⟩
  rw [roleAck, hentry]
  exact phy_answered hok rfl

end

/-! ## The payload (R522, R523) -/

section
variable {s : State} {i : Fin 4} {k : Nat} {e : ErrCode}

theorem ibiByte_byte {b : Byte} {more : Bool} (h : Answered (.byte b more) s) :
    let last := decide (k + 1 = s.env.params.ibiMax)
    ibiByte i k s =
      { driven (.rbyte false last) s with
        ibi.data := s.ibi.data ||| place b (8 * k)
        ibi.cnt := BitVec.ofNat 8 (k + 1)
        work.request := if more = false ∨ last = true then .stop (.ibi i) else .data i (k + 1) } := by
  intro last
  have hlast : more = false ∨ last = true ↔ more = false ∨ k + 1 = s.env.params.ibiMax :=
    or_congr_right decide_eq_true_iff
  rw [if_congr hlast rfl rfl]
  by_cases hend : more = false ∨ k + 1 = s.env.params.ibiMax
  · rw [if_pos hend]
    exact (phy_answered h rfl).trans (if_pos hend)
  · rw [if_neg hend]
    exact (phy_answered h rfl).trans (if_neg hend)

theorem ibiByte_err (he : e ∈ [ErrCode.ce0, .ce1, .ce3, .stall]) (h : Answered (.err e) s) :
    ibiByte i k s = requestError e (driven (.rbyte false (decide (k + 1 = s.env.params.ibiMax))) s) :=
  phy_answered h ((controllerKind_iff e).mpr he)

/-- CE1 sets RECOV in controller role (spec/60_exceptions.md R573). -/
theorem needRecovery_of_controller (h : s.ctl.mode = .controller) :
    needRecovery e s = { s with ctl.recov := s.ctl.recov || decide (e = .ce1) } := by
  unfold needRecovery
  split_ifs with hce1
  · simp [hce1.1]
  · have hne : e ≠ .ce1 := fun he => hce1 ⟨he, h⟩
    simp [hne]

theorem requestError_pending (h : s.ctl.cmdp = true) : requestError e s = raiseError e s := if_pos h

/-- With no command pending nothing is raised, and the STOP follows (log entry 12). -/
theorem requestError_alone (h : s.ctl.cmdp = false) (hmode : s.ctl.mode = .controller) : requestError e s =
    { latchFlag e { s with ctl.recov := s.ctl.recov || decide (e = .ce1) } with work.request := .stop .none } := by
  rw [requestError, if_neg (ne_true_of_eq_false h), needRecovery_of_controller hmode]
  rfl

end

/-! ## The STOP (R522, R524) -/

/-- An IBI suspends a START that is pending where its entry says so (R524). -/
theorem suspendFor_eq (i : Fin 4) (s : State) : suspendFor i s =
    { s with
      ctl.suspended := s.ctl.suspended || (s.cfg.bdt[i].susp && s.ctl.cmdp && decide (s.ctl.pendop = 0x20)) } := by
  have hpending : (s.cfg.bdt[i].susp && pending opStart s) =
      (s.cfg.bdt[i].susp && s.ctl.cmdp && decide (s.ctl.pendop = 0x20)) := (Bool.and_assoc ..).symm
  rw [suspendFor, hpending]
  split_ifs with h
  · rw [h, Bool.or_true]
  · rw [Bool.eq_false_of_not_eq_true h, Bool.or_false]

/-! ## One step of the handling (R521) -/

section
variable {s : State} {a : Addr7} {i : Fin 4}

theorem requestStep_ack_read (h : s.work.request = .ack a true) : requestStep s = ibiAck a s := by
  rw [requestStep, h]
  exact if_neg (by simp)

theorem requestStep_ack_hotJoin (h : s.work.request = .ack 0x02 false) : requestStep s = hotJoinAck s := by
  rw [requestStep, h]
  rfl

theorem requestStep_ack_role (ha : a ≠ 0x02) (h : s.work.request = .ack a false) : requestStep s = roleAck a s := by
  rw [requestStep, h]
  exact if_neg fun hhj => ha hhj.1

theorem requestStep_data {k : Nat} (h : s.work.request = .data i k) : requestStep s = ibiByte i k s := by
  rw [requestStep, h]

theorem requestStep_stop {n : RequestNote} (h : s.work.request = .stop n) (hok : Answered .ok s) :
    requestStep s = requestEnd n { driven .stop s with seq.frame := false, work.request := .idle } := by
  rw [requestStep, h]
  exact phy_answered hok rfl

end

/-- Settles O42: `requestStep` runs one operation for each phase of the handling, and each has one lemma per answer. -/
theorem ibiReception : Obligations.IbiReception := by
  intro a s refused stopped
  refine ⟨fun hok => ⟨fun hreq => ?ibi, fun hreq => ?hotJoin, fun ha hreq => ?role, fun hreq => requestStep_stop hreq hok,
    fun hreq => requestStep_stop hreq hok, fun hreq => requestStep_stop hreq hok, fun i hreq => ?suspend⟩,
    fun i k hreq => ?payload⟩
  case ibi =>
    rw [requestStep_ack_read hreq]
    exact ⟨ibiAck_refused hok, fun i => ibiAck_accepted hok⟩
  case hotJoin => exact (requestStep_ack_hotJoin hreq).trans (hotJoinAck_ok hok)
  case role =>
    rw [requestStep_ack_role ha hreq]
    exact ⟨roleAck_refused hok, fun i => roleAck_accepted hok⟩
  case suspend =>
    rw [requestStep_stop hreq hok, requestEnd, suspendFor_eq]
    rfl
  case payload =>
    intro last r
    rw [requestStep_data hreq]
    refine ⟨fun b more => ibiByte_byte, fun e he herr => ?_⟩
    rw [ibiByte_err he herr]
    exact ⟨requestError_pending (s := r), requestError_alone (s := r)⟩

end Sys2Proof.Machine
end

section
/-! SUPPORT. Notifications (spec/46_events.md R542, R545), the interrupt line they raise (spec/10_state.md R54), and the
notification commands (R540, R541, R546). -/

namespace Sys2Proof.Machine

/-! ## A notification (R542, R545) -/

section
variable {f : Flag} {s : State}

theorem notify_disabled (h : s.rep.noten.getLsbD (flagIndex f) = false) : notify f s = s := if_neg (ne_true_of_eq_false h)

theorem notify_enabled (h : s.rep.noten.getLsbD (flagIndex f) = true) : notify f s = flag f (capture f s) := if_pos h

theorem slotOf_eq_some_iff {i : Fin 11} : slotOf f = some i ↔ flagIndex f = 16 + i.val := by
  revert i
  cases f <;> decide

/-- A controller id has no slot. -/
theorem slotOf_controller (h : flagIndex f < 16) : slotOf f = none := by
  rw [Option.eq_none_iff_forall_ne_some]
  intro i hi
  have hindex : flagIndex f = 16 + i.val := slotOf_eq_some_iff.mp hi
  omega

theorem capture_target {i : Fin 11} (h : flagIndex f = 16 + i.val) :
    capture f s = { s with snap.slots := s.snap.slots.set i (snapshotOf s) } := by
  rw [capture, slotOf_eq_some_iff.mpr h]

theorem capture_controller (h : flagIndex f < 16) : capture f s = s := by rw [capture, slotOf_controller h]

theorem capture_rep (f : Flag) (s : State) : (capture f s).rep = s.rep := by
  unfold capture
  split <;> rfl

/-! ## The interrupt line (spec/10_state.md R54) -/

theorem flagBit_getLsbD (f : Flag) (n : Nat) : (flagBit f).getLsbD n = decide (flagIndex f = n) := by
  have hindex : flagIndex f < 32 := by cases f <;> decide
  have hpow : flagBit f = BitVec.twoPow 32 (flagIndex f) := rfl
  rw [hpow, BitVec.getLsbD_twoPow, decide_eq_true hindex, Bool.true_and]

/-- A flag that is set and enabled raises IRQ, over IRQ_ER if it is ERR and over IRQ_EV if not. -/
theorem irq_of_enabled_flag {n : Nat} (hisr : s.rep.isr.getLsbD n = true) (hier : s.rep.ier.getLsbD n = true) :
    irq s = true := by
  have hn : n < 32 := BitVec.lt_of_getLsbD hisr
  rw [irq, Bool.or_eq_true]
  by_cases herr : n = 1
  · subst herr
    exact .inl (Bool.and_eq_true_iff.mpr ⟨hisr, hier⟩)
  · refine .inr (bne_iff_ne.mpr fun hzero => ?_)
    have hbit : (s.rep.isr &&& s.rep.ier &&& ~~~flagBit .err).getLsbD n = (0#32).getLsbD n := by rw [hzero]
    have hother : (flagBit .err).getLsbD n = false := by simp [flagBit_getLsbD, flagIndex, Ne.symm herr]
    simp only [BitVec.getLsbD_and, BitVec.getLsbD_not, BitVec.getLsbD_zero, hisr, hier, hother, hn, decide_true,
      Bool.not_false, Bool.and_self, Bool.true_eq_false] at hbit

theorem flag_isr_getLsbD (f : Flag) (s : State) : (flag f s).rep.isr.getLsbD (flagIndex f) = true := by
  simp [flagBit_getLsbD]

theorem irq_notify (hnoten : s.rep.noten.getLsbD (flagIndex f) = true)
    (hier : s.rep.ier.getLsbD (flagIndex f) = true) : irq (notify f s) = true := by
  rw [notify_enabled hnoten]
  refine irq_of_enabled_flag (flag_isr_getLsbD f _) ?_
  change (capture f s).rep.ier.getLsbD (flagIndex f) = true
  rwa [capture_rep]

end

/-- Settles O15: a notification that is enabled captures in the slot of its id, if it has one, and sets its flag. -/
theorem notifyRule : Obligations.NotifyRule := by
  intro f s table
  refine ⟨?bits, rfl, notify_disabled, fun hnoten => ⟨fun i hi => ?target, fun hi => ?controller, irq_notify hnoten⟩⟩
  case bits => cases f <;> decide
  case target =>
    rw [notify_enabled hnoten, capture_target hi]
    rfl
  case controller =>
    rw [notify_enabled hnoten, capture_controller hi]
    rfl

/-! ## NOTIFY_ACTIVATE and NOTIFY_DEACTIVATE (R540, R541) -/

section
variable {s : State}

theorem notInitialised_iff : notInitialised s = true ↔ s.ctl.life = .reset ∨ s.ctl.mode = .none := by
  simp [notInitialised]

/-- With a mode, the ids that the mask may hold are those of the controller or those of the target. -/
theorem idMask_of_mode {m : Mode} (h : m ≠ .none) :
    idMask m = if m = .controller then 0x000000E0 else 0x07FF0000 := by
  cases m with
  | none => exact absurd rfl h
  | controller => rfl
  | target => rfl

theorem maskOk_iff (h : s.ctl.mode ≠ .none) : maskOk s = true ↔
    ¬(s.arg.arg0 &&& ~~~(if s.ctl.mode = .controller then 0x000000E0 else 0x07FF0000 : Word) ≠ 0) := by
  rw [maskOk, idMask_of_mode h, beq_iff_eq, not_ne_iff]
  rfl

theorem listBufferOk_iff : listBufferOk s = true ↔
    ¬(s.ctl.mode = .target ∧ s.arg.arg0.getLsbD 26 = true ∧ (s.arg.arg1 = 0 ∨ s.arg.arg2 = 0)) := by
  rw [listBufferOk, Bool.not_eq_true', ← Bool.not_eq_true]
  simp [wantsList, flagIndex, and_assoc]

theorem listenOf_eq (m : Mode) (noten : Word) :
    listenOf m noten = decide (m = .target ∧ noten &&& 0x07FF0000 ≠ 0) := by
  rw [Bool.decide_and, listenOf, ← listenOf_target]
  rfl

/-- The buffer of the list notification is taken with its id alone. -/
theorem notifyActivate_eq (s : State) : notifyActivate s =
    { s with
      rep.noten := s.rep.noten ||| s.arg.arg0
      ctl.listen := decide (s.ctl.mode = .target ∧ (s.rep.noten ||| s.arg.arg0) &&& 0x07FF0000 ≠ 0)
      snap.nbufptr := if s.arg.arg0.getLsbD 26 then byteAt s s.arg.arg1.toNat 0 else s.snap.nbufptr
      snap.nbuflen := if s.arg.arg0.getLsbD 26 then s.arg.arg2 else s.snap.nbuflen } := by
  have hwants : wantsList s = s.arg.arg0.getLsbD 26 := rfl
  unfold notifyActivate
  rw [hwants, ← listenOf_eq]
  cases s.arg.arg0.getLsbD 26 <;> rfl

theorem notenCleared_eq (s : State) : relisten { s with rep.noten := s.rep.noten &&& ~~~s.arg.arg0 } =
    { s with
      rep.noten := s.rep.noten &&& ~~~s.arg.arg0
      ctl.listen := decide (s.ctl.mode = .target ∧ s.rep.noten &&& ~~~s.arg.arg0 &&& 0x07FF0000 ≠ 0) } := by
  rw [← listenOf_eq]
  rfl

end

/-- Settles O43: the two checks as propositions, and what each command does to NOTEN. -/
theorem notifyCommandsComplete : Obligations.NotifyCommandsComplete := by
  intro st sub s mask ids busy foreign listen
  by_cases hbusy : busy
  · have hreset : notInitialised s = true := notInitialised_iff.mpr hbusy
    rw [if_pos hbusy, if_pos hbusy]
    exact ⟨congrArg _ (if_pos hreset), congrArg _ (if_pos hreset)⟩
  · have hreset : ¬notInitialised s = true := mt notInitialised_iff.mp hbusy
    have hmask : maskOk s = true ↔ ¬foreign := maskOk_iff fun hmode => hbusy (.inr hmode)
    rw [if_neg hbusy, if_neg hbusy]
    refine ⟨congrArg _ ((if_neg hreset).trans ?activate), congrArg _ ((if_neg hreset).trans ?deactivate)⟩
    case activate =>
      have hchecks : (maskOk s && listBufferOk s) = true ↔ ¬(foreign ∨
          (s.ctl.mode = .target ∧ mask.getLsbD 26 = true ∧ (s.arg.arg1 = 0 ∨ s.arg.arg2 = 0))) := by
        rw [Bool.and_eq_true, hmask, listBufferOk_iff, not_or]
      rw [if_congr hchecks rfl rfl, ite_not, notifyActivate_eq]
      rfl
    case deactivate =>
      rw [if_congr hmask rfl rfl, ite_not, notenCleared_eq]
      rfl

/-! ## GET_CCC_INFO (R546) -/

section
variable (st : Strat) (sub : Byte) {s : State}

theorem slotOfId_eq_none {id : Word} (h : id.toNat < 16 ∨ 26 < id.toNat) : slotOfId id = none := by
  unfold slotOfId
  split_ifs
  · omega
  · rfl
  · rfl

theorem slotOfId_eq_some {id : Word} {i : Fin 11} (h : id.toNat = 16 + i.val) : slotOfId id = some i := by
  have hi : i.val < 11 := i.isLt
  unfold slotOfId
  rw [if_pos (by omega), dif_pos (by omega)]
  exact congrArg some (Fin.ext (by simp [h]))

theorem exec_getCccInfo_busy (h : s.ctl.mode ≠ .target) :
    exec (.getCccInfo st sub) s = .next { s with rep.pcode := 2 } := congrArg _ (if_pos (.inl h))

section
variable (hmode : s.ctl.mode = .target) (hlife : s.ctl.life ≠ .reset)
include hmode hlife

theorem exec_getCccInfo_bad_id (h : s.arg.arg0.toNat < 16 ∨ 26 < s.arg.arg0.toNat) :
    exec (.getCccInfo st sub) s = .next { s with rep.pcode := 3 } := by
  rw [exec, execGetCccInfo, if_neg (by simp [hmode, hlife]), slotOfId_eq_none h]
  rfl

theorem exec_getCccInfo_id {i : Fin 11} (h : s.arg.arg0.toNat = 16 + i.val) : exec (.getCccInfo st sub) s =
    .next (if s.snap.slots[i].pend then presult .ok (takeSlot i s) else presult .invalidParam s) := by
  rw [exec, execGetCccInfo, if_neg (by simp [hmode, hlife]), slotOfId_eq_some h]

theorem exec_getCccInfo_empty {i : Fin 11} (h : s.arg.arg0.toNat = 16 + i.val) (hpend : s.snap.slots[i].pend = false) :
    exec (.getCccInfo st sub) s = .next { s with rep.pcode := 3 } :=
  (exec_getCccInfo_id st sub hmode hlife h).trans (congrArg _ (if_neg (ne_true_of_eq_false hpend)))

theorem exec_getCccInfo_pending {i : Fin 11} (h : s.arg.arg0.toNat = 16 + i.val) (hpend : s.snap.slots[i].pend = true) :
    exec (.getCccInfo st sub) s = .next (presult .ok (takeSlot i s)) :=
  (exec_getCccInfo_id st sub hmode hlife h).trans (congrArg _ (if_pos hpend))

end

theorem takeSlot_not_pending (i : Fin 11) (s : State) : (takeSlot i s).snap.slots[i].pend = false := by
  simp [takeSlot]

end

/-- Settles O44: the id selects a slot or none, and a slot that is taken is not pending. -/
theorem getCccInfoCompletes : Obligations.GetCccInfoCompletes := by
  intro st sub s
  refine ⟨exec_getCccInfo_busy st sub, fun hmode hlife => ⟨exec_getCccInfo_bad_id st sub hmode hlife, fun i hi =>
    ⟨exec_getCccInfo_empty st sub hmode hlife hi, fun hpend => ?_⟩⟩⟩
  intro r t
  exact ⟨exec_getCccInfo_pending st sub hmode hlife hi hpend,
    exec_getCccInfo_empty st sub (s := t) hmode hlife hi (takeSlot_not_pending i s)⟩

end Sys2Proof.Machine
end

section
/-! SUPPORT. The error-handling sequence (spec/60_exceptions.md R560, R566, R567, R570 to R575; spec/41_controller.md R293): the
halt as one update, its three ends, the target error entry, and the ENGINE step after an error under an abort; and the state
after power-on (spec/70_reset_and_hazards.md R620, R621). -/

namespace Sys2Proof.Machine

/-! ## The halt of an error (R570, R573) -/

section
variable (e : ErrCode) (s : State)

/-- The state that an error leaves before its end: the code is latched, ERR flagged, the frame ended, every machine idle. -/
def errorHalted : State :=
  { s with
    rep.err := if s.env.params.errTrack then s.rep.err ||| errBit e else s.rep.err
    rep.callerr := if s.ctl.cmdp then s.rep.callerr ||| errBit e else s.rep.callerr
    rep.isr := s.rep.isr ||| 2#32
    ctl.recov := s.ctl.recov || (decide (e = .ce1) && decide (s.ctl.mode = .controller))
    ctl.suspended := false
    fifo := Fifos.reset
    cnt.ctrlrem := 0
    cnt.txrem := 0
    cnt.rxrem := 0
    seq.phase := .idle
    seq.ccchdr := false
    seq.handover := false
    seq.frame := if s.ctl.mode = .controller then false else s.seq.frame
    daa.phase := .idle
    tgt.trq := .none
    tgt.tgtend := false
    tgt.phase := if s.ctl.mode = .target then .ignore else s.tgt.phase
    tgt.ignstop := if s.ctl.mode = .target then false else s.tgt.ignstop
    work.micro := .start
    work.rxHold := none
    work.request := .idle
    env.bus := if s.ctl.mode = .controller ∧ s.seq.frame = true ∧ e ≠ .ce1 then .req .stop :: s.env.bus else s.env.bus }

theorem needRecovery_eq : needRecovery e s =
    { s with ctl.recov := s.ctl.recov || (decide (e = .ce1) && decide (s.ctl.mode = .controller)) } := by
  unfold needRecovery
  split
  · next h => simp [h]
  · next h =>
    have hquiet : (decide (e = .ce1) && decide (s.ctl.mode = .controller)) = false := by
      rw [← Bool.decide_and]
      exact decide_eq_false h
    rw [hquiet, Bool.or_false]

theorem closeFrame_false : closeFrame false s = { closeFrame true s with env.bus := s.env.bus } := by
  unfold closeFrame
  split <;> rfl

/-- CE1 leaves the bus as it is: an open frame ends without STOP. -/
theorem closeFrame_of_error : closeFrame (decide (e ≠ .ce1)) s =
    { s with
      seq.frame := if s.ctl.mode = .controller then false else s.seq.frame
      env.bus := if s.ctl.mode = .controller ∧ s.seq.frame = true ∧ e ≠ .ce1 then .req .stop :: s.env.bus
        else s.env.bus } := by
  by_cases h : e = .ce1
  · simp [h, closeFrame_false, closeFrame_true]
  · simp [h, closeFrame_true]

theorem errorHalted_eq : flag .err (errorHalt e (needRecovery e (latch e s))) = errorHalted e s := by
  unfold errorHalt
  rw [closeFrame_of_error, needRecovery_eq, errorHalted]
  by_cases h : s.ctl.mode = .target
  · simp only [latch_ctl, h, if_true]
    rfl
  · simp only [latch_ctl, h, if_false]
    rfl

end

/-! ## The ends of `raise Error` (R570, R574) -/

section
variable {e : ErrCode} {s : State}

theorem raiseError_of_abort (h : s.ctl.abortreq = true) : raiseError e s = errorHalted e s := by
  rw [raiseError, errorHalted_eq]
  exact if_pos h

/-- With no command pending nothing ends. -/
theorem raiseError_of_no_command (h : s.ctl.cmdp = false) : raiseError e s = errorHalted e s := by
  rw [raiseError, errorHalted_eq, errorEnd]
  split
  · rfl
  · exact if_neg (ne_true_of_eq_false h)

theorem flagRequest_of_command (h : s.ctl.cmdp = true) : flagRequest s =
    { s with rep.isr := s.rep.isr |||
        (if s.ctl.pendop = 0x32 ∨ s.ctl.pendop = 0x33 ∨ s.ctl.pendop = 0x34 then 0x200#32 else 0#32) } := by
  have hrequest := requestPending_iff.trans (and_iff_right h)
  unfold flagRequest
  rw [if_congr hrequest rfl rfl]
  split
  · rfl
  · rw [BitVec.or_zero]

/-- The pending command finishes with PROTOCOL_ERROR. -/
theorem raiseError_of_command (hcmdp : s.ctl.cmdp = true) (habort : s.ctl.abortreq = false) : raiseError e s =
    { errorHalted e s with
      rep :=
        { s.rep with
          err := if s.env.params.errTrack then s.rep.err ||| errBit e else s.rep.err
          callerr := s.rep.callerr ||| errBit e
          reserr := s.rep.callerr ||| errBit e
          isr := s.rep.isr ||| 2#32 |||
            (if s.ctl.pendop = 0x32 ∨ s.ctl.pendop = 0x33 ∨ s.ctl.pendop = 0x34 then 0x200#32 else 0#32)
          code := 4
          aux := report s }
      ctl :=
        { s.ctl with
          life := .idle
          cmdp := false
          tmo := false
          suspended := false
          recov := s.ctl.recov || (decide (e = .ce1) && decide (s.ctl.mode = .controller)) } } := by
  have hlatched : (errorHalted e s).rep.callerr = s.rep.callerr ||| errBit e := if_pos hcmdp
  have hend : errorEnd (errorHalted e s) =
      finish .protocolError (report s) (setLife .idle (flagRequest (errorHalted e s))) :=
    (if_neg (ne_true_of_eq_false habort)).trans (if_pos hcmdp)
  rw [raiseError, errorHalted_eq, hend, flagRequest_of_command (s := errorHalted e s) hcmdp, ← hlatched]
  rfl

/-- What becomes of the command shows in the report and in the lifecycle alone. -/
theorem exists_raiseError_eq (e : ErrCode) (s : State) :
    ∃ r c, raiseError e s = { errorHalted e s with rep := r, ctl := c } := by
  by_cases hcmdp : s.ctl.cmdp = true
  · by_cases habort : s.ctl.abortreq = true
    · exact ⟨_, _, raiseError_of_abort habort⟩
    · exact ⟨_, _, raiseError_of_command hcmdp (Bool.eq_false_of_not_eq_true habort)⟩
  · exact ⟨_, _, raiseError_of_no_command (Bool.eq_false_of_not_eq_true hcmdp)⟩

/-! ## The target error entry (R575) -/

theorem belongs_iff : belongs s = true ↔
    s.ctl.cmdp = true ∧
      ((s.ctl.pendop = 0x31 ∧ s.tgt.phase = .privW) ∨ (s.ctl.pendop = 0x30 ∧ s.tgt.phase = .privR) ∨
        (s.ctl.pendop = 0x34 ∧ s.tgt.trq = .ibiData) ∨
        (s.ctl.pendop = 0x32 ∧ s.tgt.trq = .hjWaitDaa ∧ s.tgt.phase = .daa) ∨
        (s.ctl.pendop = 0x33 ∧ s.tgt.trq ≠ .none)) := by
  simp only [belongs, Bool.or_eq_true, Bool.and_eq_true, pending_iff, beq_iff_eq, bne_iff_ne, and_assoc, or_assoc,
    ← and_or_left]
  rfl

theorem targetError_of_belongs (h : belongs s = true) : targetError e s = raiseError e { s with tst.perr := true } :=
  if_pos h

theorem targetError_of_not_belongs (h : ¬belongs s = true) : targetError e s =
    { latchFlag e { s with tst.perr := true } with tgt.phase := .ignore, tgt.ignstop := false } :=
  if_neg h

end

/-- Settles O16: the halt is one update (`errorHalted`) in every case; the command's end touches the report and the lifecycle
alone. -/
theorem raiseErrorRule : Obligations.RaiseErrorRule := by
  intro e s table err t p mine
  refine ⟨?bits, ⟨rfl, rfl⟩, fun h => targetError_of_belongs (belongs_iff.mpr h),
    fun h => targetError_of_not_belongs (mt belongs_iff.mp h), ?command, ?alone, ?halt⟩
  case bits => cases e <;> decide
  case command =>
    intro hcmdp habort
    change (raiseError e s).rep = _ ∧ (raiseError e s).ctl = _
    rw [raiseError_of_command hcmdp habort]
    exact ⟨rfl, rfl⟩
  case alone =>
    intro hcmdp
    have hlatched : (errorHalted e s).rep.callerr = s.rep.callerr := if_neg (ne_true_of_eq_false hcmdp)
    change (raiseError e s).rep = _ ∧ (raiseError e s).ctl = _
    rw [raiseError_of_no_command hcmdp]
    refine ⟨?_, rfl⟩
    calc (errorHalted e s).rep
        = { s.rep with err := err, callerr := (errorHalted e s).rep.callerr, isr := s.rep.isr ||| 2#32 } := rfl
      _ = { s.rep with err := err, isr := s.rep.isr ||| 2#32 } := by rw [hlatched]
  case halt =>
    obtain ⟨r, c, ht⟩ := exists_raiseError_eq e s
    change t = _ at ht
    rw [ht]
    refine ⟨rfl, fun hmode => ⟨if_pos hmode, if_neg (by simp [hmode])⟩,
      fun hmode => ⟨if_pos hmode, if_pos hmode, if_neg (by simp [hmode])⟩, rfl, rfl, rfl, rfl, rfl, rfl, rfl, rfl, rfl, rfl,
      rfl, rfl, rfl, rfl, rfl, rfl⟩

/-! ## The ENGINE step after an error under an abort (R574, R293) -/

/-- No machine of either role goes on from where it was: a controller's would begin anew, a target's waits. -/
structure Halted (s : State) : Prop where
  sequencer : s.seq.phase = .idle
  round : s.daa.phase = .idle
  request : s.work.request = .idle
  micro : s.work.micro = .start
  targetRequest : s.tgt.trq = .none
  messageOpen : s.tgt.tgtend = false
  ignoring : s.ctl.mode = .target → s.tgt.phase = .ignore

theorem errorHalted_halted (e : ErrCode) (s : State) : Halted (errorHalted e s) :=
  ⟨rfl, rfl, rfl, rfl, rfl, rfl, fun hmode => if_pos hmode⟩

/-- From `s` to `t` no request was made, or one that admits no error (R561). -/
def AsksNoError (s t : State) : Prop :=
  t.env.bus = s.env.bus ∨ ∃ r, errorsOf r = [] ∧ t.env.bus = .req r :: s.env.bus

section
variable {s t : State} {u : EngineUnit}

theorem AsksNoError.refl (s : State) : AsksNoError s s := .inl rfl

theorem gotError_of_asksNoError (k : ErrCode) (h : AsksNoError s t) : gotError k s t = false := by
  refine Bool.eq_false_of_not_eq_true fun hgot => ?_
  obtain ⟨r, hr, hadmits⟩ := gotError_iff.mp hgot
  rcases h with hbus | ⟨r', hnone, hbus⟩
  · simp [hbus] at hr
  · have hsame : r = r' := by simpa [hbus] using hr
    rw [admits_err_iff, hsame, hnone] at hadmits
    exact List.not_mem_nil hadmits

theorem oneShotStart_asksNoError (next : Micro) (s : State) : AsksNoError s (oneShotStart next s) := by
  rcases phy_cases .start _ s with h | ⟨a, -, -, h⟩
  · exact .inl (congrArg (·.env.bus) h)
  · refine .inr ⟨.start, rfl, (congrArg (·.env.bus) h).trans ?_⟩
    cases a <;> rfl

theorem recoverStep_asksNoError (s : State) : AsksNoError s (recoverStep s) := by
  rcases phy_cases .recover _ s with h | ⟨a, -, -, h⟩
  · exact .inl (congrArg (·.env.bus) h)
  · exact .inr ⟨.recover, rfl, congrArg (·.env.bus) h⟩

section
variable (h : Halted s)
include h

/-- A halted controller can begin a one-shot command anew, with START or RECOVER. -/
theorem controllerStep_of_halted : ∃ v, controllerStep s = .next v ∧ AsksNoError s v := by
  have hround : daaStep s = s := by rw [daaStep, h.round]
  have hword : sequencerStep s = .next s := by rw [sequencerStep, h.sequencer]
  have hsetdasa : AsksNoError s (setdasaStep s) := setdasaStep_start h.micro ▸ oneShotStart_asksNoError _ s
  have hprobe : AsksNoError s (probeStep s) := probeStep_start h.micro ▸ oneShotStart_asksNoError _ s
  unfold controllerStep
  rw [if_neg (not_not.mpr h.request), hround, hword]
  split_ifs
  · exact ⟨_, rfl, .refl s⟩
  · exact ⟨_, rfl, .refl s⟩
  · exact ⟨_, rfl, hsetdasa⟩
  · exact ⟨_, rfl, hprobe⟩
  · exact ⟨_, rfl, recoverStep_asksNoError s⟩
  · exact ⟨_, rfl, .refl s⟩

/-- A halted target ignores the bus and requests nothing. -/
theorem targetStep_of_halted (hmode : s.ctl.mode = .target) : targetStep u s = .next s := by
  have hphase := h.ignoring hmode
  cases u with
  | main => rfl
  | drive => rw [targetStep, hphase]
  | request => simp [targetStep, targetRequestStep, h.targetRequest, hphase]
  | close => simp [targetStep, closeStep, h.messageOpen]

theorem roleStep_of_halted : ∃ v, roleStep u s = .next v ∧ AsksNoError s v := by
  cases hmode : s.ctl.mode with
  | none => exact ⟨s, by rw [roleStep, hmode], .refl s⟩
  | controller =>
    rw [roleStep, hmode]
    exact controllerStep_of_halted h
  | target =>
    rw [roleStep, hmode]
    exact ⟨s, targetStep_of_halted h hmode, .refl s⟩

/-- Whatever the PHY answers, a halted machine has asked nothing that an error answers: the confirmation comes alone. -/
theorem abortTurn_of_halted (a : PhyAnswer) : abortTurn u a s = .next (abortConfirm s) := by
  by_cases ha : ∃ k, a = .err k
  · obtain ⟨k, rfl⟩ := ha
    obtain ⟨v, hv, hasks⟩ := roleStep_of_halted (u := u) h
    rw [abortTurn_err hv, gotError_of_asksNoError k hasks, if_neg Bool.false_ne_true]
  · exact abortTurn_of_no_error (not_exists.mp ha)

end

end

/-- Settles O17: the error leaves the halted state with the abort pending, and its ENGINE step is the confirmation alone. -/
theorem errorUnderAbort : Obligations.ErrorUnderAbort := by
  intro e s hcmdp habort t u
  have ht : t = errorHalted e s := raiseError_of_abort habort
  have hlatched : (errorHalted e s).rep.callerr = s.rep.callerr ||| 1#19 <<< errIndex e := if_pos hcmdp
  obtain ⟨engine, draws, hu⟩ := exists_abortConfirm_eq (errorHalted e s)
  have hu' : u = _ := (congrArg abortConfirm ht).trans (hu.trans (by rw [commandHalt_eq]))
  have hnext : ∀ q a, engineTurn q a t = .next u := by
    intro q a
    change engineTurn q a t = .next (abortConfirm t)
    rw [ht, engineTurn_of_abortreq q a (s := errorHalted e s) habort, abortTurn_of_halted (errorHalted_halted e s)]
  exact ⟨congrArg (·.ctl.life) ht, (congrArg (·.ctl.cmdp) ht).trans hcmdp, (congrArg (·.ctl.abortreq) ht).trans habort,
    congrArg (·.rep.code) ht, congrArg (·.rep.aux) ht, congrArg (·.rep.reserr) ht, congrArg (·.rep.isr) ht,
    (congrArg (·.rep.callerr) ht).trans hlatched, congrArg (·.seq.phase) ht, congrArg (·.fifo) ht,
    congrArg (·.ctl.life) hu', congrArg (·.ctl.cmdp) hu', congrArg (·.ctl.abortreq) hu', congrArg (·.rep.code) hu',
    by rw [hu', ht], (congrArg (·.rep.reserr) hu').trans hlatched, hnext⟩

/-! ## Power-on (spec/70_reset_and_hazards.md R620, R621) -/

/-- Settles O14: with no mode and no notification LISTEN is rightly 0, every pointer is 0 and every FIFO empty. -/
theorem resetInvariants : Obligations.ResetInvariants := by
  refine ⟨reset_memory_wf _, ?pointers, resetBlock_lifecycleOk State.reset, ?listen, addressesOk_reset, reservedOk_reset,
    ?capacity, rfl, rfl, rfl, rfl, rfl, rfl, rfl, rfl⟩
  case pointers =>
    have hpos := Nat.two_pow_pos State.reset.env.params.addrW
    exact ⟨hpos, hpos, hpos, hpos, hpos, hpos⟩
  case listen => exact iff_of_false Bool.false_ne_true fun ⟨hmode, _⟩ => Mode.noConfusion hmode
  case capacity => exact ⟨Nat.zero_le _, Nat.zero_le _, Nat.zero_le _, Nat.zero_le _, Nat.zero_le _⟩

end Sys2Proof.Machine
end
